-- ==== Sys2Proof/Word.lean ====
section
/-! DEFINITION. The widths of the UART block: 8-bit registers and bytes (R9, R19), 16-bit command and
response words (R59, R65), 10-bit line words (R67), 3-bit bit indices (R66). Bit 0 is the least
significant bit of each (R9, R48). -/

namespace Sys2Proof

/-- An 8-bit register or data value (R9). -/
abbrev Byte := BitVec 8

/-- A 16-bit command word of the host command port (R59). -/
abbrev CommandWord := BitVec 16

/-- A 16-bit response word of the host command port (R65). -/
abbrev ResponseWord := BitVec 16

/-- A 10-bit received-frame word of the line port (R67). -/
abbrev LineWord := BitVec 10

/-- The index of one bit of an 8-bit register, 0 to 7 (R66, R47). -/
abbrev BitIndex := BitVec 3

end Sys2Proof
end

