-- ==== Sys2Proof/Config.lean ====
section
/-! DEFINITION. The implementation parameters of R7 and the values the spec leaves open. A parameter is
plain data held in `State.params` and written by no step, so a statement about every state is a
statement about every value of it. The OPEN ones (BRR_ENCODE, LOOPBACK, ALLOC_CAN_FAIL, R7) have no
value of the model's at reset either: there they are opaque constants. -/

namespace Sys2Proof

/-- The baud-rate set of R7 and R18. -/
inductive BaudRate where
  | b9600 | b19200 | b38400 | b57600 | b115200
  deriving DecidableEq, Repr

/-- The parity set of R7 and R18. -/
inductive Parity where
  | none | even | odd
  deriving DecidableEq, Repr

/-- The data-bit set of R7 and R18. -/
inductive DataBits where
  | seven | eight
  deriving DecidableEq, Repr

/-- The stop-bit set of R7 and R18. -/
inductive StopBits where
  | one | two
  deriving DecidableEq, Repr

/-- The configuration `cfg` an INIT latches (R18). -/
structure UartConfig where
  baud     : BaudRate
  parity   : Parity
  dataBits : DataBits
  stopBits : StopBits
  deriving DecidableEq, Repr

/-- The environment's draw `alloc` for acquiring the two FIFOs (R84). -/
inductive Alloc where
  | ok | txFail | rxFail
  deriving DecidableEq, Repr, Inhabited

/-- `BRR_ENCODE` of R7 as plain data: the divisor byte of each of the five baud rates. -/
structure BrrTable where
  at9600   : Byte
  at19200  : Byte
  at38400  : Byte
  at57600  : Byte
  at115200 : Byte
  deriving DecidableEq, Repr

/-- `BRR_ENCODE` is injective on the five baud rates (R7, R33): five distinct bytes. -/
abbrev BrrTable.injective (t : BrrTable) : Prop :=
  [t.at9600, t.at19200, t.at38400, t.at57600, t.at115200].Nodup

/-- The spec's default `BRR_ENCODE(b) = 115200 / b` (R33, D7). -/
def BrrTable.default : BrrTable :=
  { at9600 := 0x0C, at19200 := 0x06, at38400 := 0x03, at57600 := 0x02, at115200 := 0x01 }

/-- The implementation parameters of R7. -/
structure Params where
  /-- `CAP`, the capacity of each FIFO (R7, R8). -/
  cap          : Nat
  /-- `BRR_ENCODE`. -/
  brr          : BrrTable
  /-- `LOOPBACK`. -/
  loopback     : Bool
  /-- `ALLOC_CAN_FAIL`. -/
  allocCanFail : Bool
  deriving DecidableEq, Repr

/-- The parameter values the spec admits: `1 <= CAP <= 255` (R7, R8) and an injective `BRR_ENCODE`. -/
abbrev Params.wf (p : Params) : Prop := 1 ≤ p.cap ∧ p.cap ≤ 255 ∧ p.brr.injective

/-- The parameter values 95_test_vectors.md section 0 uses unless it says otherwise. Tests start from
them; `State.reset` does not. -/
def Params.reference : Params :=
  { cap := 64, brr := BrrTable.default, loopback := false, allocCanFail := false }

/-- `LOOPBACK`: OPEN, no default (R7, D26; log 3). -/
opaque Config.loopback : Bool

/-- `ALLOC_CAN_FAIL`: OPEN, no default (R7, D10; log 3). -/
opaque Config.allocCanFail : Bool

/-- `BRR_ENCODE`: OPEN, injective (R7, D7; log 3). Every injective map of the five baud rates to bytes
is this permutation of the bytes at the spec's default divisors, for some permutation. -/
opaque Config.brrPermutation : Equiv.Perm Byte

/-- The environment's answer to an allocation draw that no schedule entry gives (R84; log 4). -/
opaque Config.allocDraw : Nat → Alloc

/-- The parameters of the machine at reset: `CAP` at the value R7 gives it, the OPEN ones free. -/
def Config.params : Params :=
  { cap := 64
    brr :=
      { at9600   := Config.brrPermutation BrrTable.default.at9600
        at19200  := Config.brrPermutation BrrTable.default.at19200
        at38400  := Config.brrPermutation BrrTable.default.at38400
        at57600  := Config.brrPermutation BrrTable.default.at57600
        at115200 := Config.brrPermutation BrrTable.default.at115200 }
    loopback := Config.loopback
    allocCanFail := Config.allocCanFail }

end Sys2Proof
end

