-- ==== Sys2Proof/Syntax.lean ====
section
/-! DEFINITION. The commands and line events of the block, one constructor for each row of
spec/opcode_table.json, and what the two ports carry before decoding (R59, R67, R68). -/

namespace Sys2Proof

/-- The five control and status registers (R19, R46). -/
inductive Csr where
  | dr | sr | cr1 | cr2 | brr
  deriving DecidableEq, Repr

/-- What the block is told to do in one step: a host command (R61), a line event (R76), or a word of
the two reserved opcodes (R69 (a)). `hp` is the handle-present bit (R60). -/
inductive Instr where
  /-- INIT (R82); `cfg` is absent when CP = 0 (R63). -/
  | init (hp : Bool) (cfg : Option UartConfig)
  /-- SEND_BYTE (R89). -/
  | sendByte (hp : Bool) (data : Byte)
  /-- SEND_BUFFER (R90); its LEN is the number of bytes (R64). -/
  | sendBuffer (hp : Bool) (bytes : List Byte)
  /-- IS_TX_EMPTY (R91). -/
  | isTxEmpty (hp : Bool)
  /-- RECEIVE_BYTE (R96). -/
  | receiveByte (hp : Bool)
  /-- RECEIVE_BUFFER (R97). -/
  | receiveBuffer (hp : Bool) (maxLength : BitVec 8)
  /-- IS_DATA_READY (R98). -/
  | isDataReady (hp : Bool)
  /-- GET_ERROR (R104). -/
  | getError (hp : Bool)
  /-- CLEAR_ERROR (R105). -/
  | clearError (hp : Bool)
  /-- REG_READ (R77). -/
  | regRead (hp : Bool) (reg : Csr)
  /-- TEST_BIT (R78). -/
  | testBit (hp : Bool) (reg : Csr) (bit : BitIndex)
  /-- SET_BIT; the register is always CR1 (R79). -/
  | setBit (hp : Bool) (bit : BitIndex)
  /-- CLEAR_BIT; the register is always CR1 (R80). -/
  | clearBit (hp : Bool) (bit : BitIndex)
  /-- TEARDOWN (R86). -/
  | teardown (hp : Bool)
  /-- RX_FRAME, a line event (R100), with the fields of its line word (R67). -/
  | rxFrame (feIn peIn : Bool) (data : Byte)
  /-- TX_SHIFT, a line event (R92). -/
  | txShift
  /-- The table's `reserved` row, opcodes 0xE and 0xF, with the word's other bits (R69 (a); log 6). -/
  | reserved (bits : BitVec 13)
  deriving DecidableEq, Repr

/-- What arrives at a port, not yet decoded: a command word with its payload (R59), a received frame
(R67), or the transmitter's drain, which has no input word (R68). -/
inductive PortInput where
  | command (word : CommandWord) (payload : List Byte)
  | frame (word : LineWord)
  | shift
  deriving DecidableEq, Repr

/-- One entry of the schedule: what arrives, and the environment's answer to an allocation draw taken
while it runs (R11, R84). -/
structure Event where
  input : PortInput
  alloc : Alloc
  deriving DecidableEq, Repr

/-- Why the decoder gives a command word no meaning (R117). -/
inductive DecodeRefusal where
  /-- R69 (a) to (e). -/
  | reservedEncoding
  /-- R69 (f) and (g). -/
  | payloadMismatch
  deriving DecidableEq, Repr

end Sys2Proof
end

