-- ==== Sys2Proof/Machine/State.lean ====
section
/-! DEFINITION. The state of one block instance (R15): every field of the spec's record, the refusal mark
(R117), and the model's own fields, which hold what passes the ports and the parameters of R7. Also the reasons a step
can stop, and the state at reset (R126, R44). -/

namespace Sys2Proof.Machine

open Sys2Proof

/-- The lifecycle state (R17). -/
inductive Life where
  | uninit | ready
  deriving DecidableEq, Repr

/-- The values of `current_error` (R39). -/
inductive LatchedError where
  | noError | framingError | parityError | overrunError
  deriving DecidableEq, Repr

/-- The codes an error response can carry (R110, column "kind": response). -/
inductive ResponseError where
  | nullPointer | bufferFull | bufferCreateFailure | bufferEmpty
  deriving DecidableEq, Repr

/-- One answer on the command port: the response word, and the payload of RECEIVE_BUFFER (R65). -/
structure Response where
  word    : ResponseWord
  payload : List Byte
  deriving DecidableEq, Repr

/-- Why the block is in the faulted state, from which no further step is taken (R116). Both are safe:
the run stops, so no claim about what follows can be proved. -/
inductive Fault where
  /-- HP = 0 on a command whose result has no error code (R111). Raised by SEND_BUFFER, IS_TX_EMPTY,
  RECEIVE_BUFFER, IS_DATA_READY, GET_ERROR, CLEAR_ERROR, REG_READ, TEST_BIT, SET_BIT, CLEAR_BIT and
  TEARDOWN. Safe. -/
  | noInstance
  /-- A command other than INIT while the block is Uninit (R116, R17). Raised by every command but INIT,
  and on reading a FIFO that does not exist. Safe. -/
  | notInitialised
  deriving DecidableEq, Repr

/-- What this model gives no meaning. A command the decoder refuses is not one of these: R117 says what it
does, and the step does it (log 5). -/
inductive Refusal where
  /-- An instruction of the table without a meaning in this model: raised by no arm. Safe. -/
  | notModelled (mnemonic : String)
  deriving DecidableEq, Repr

/-- The state of one instance. The fields down to `lineOut` are the record of R15, `refusals` is
the mark of R117, and the rest are the model's own. -/
@[ext]
structure State where
  /-- The lifecycle state (R17). -/
  life : Life
  /-- The configuration latched by INIT (R18). -/
  cfg : UartConfig
  /-- DR, CSR index 0 (R20). -/
  dr : Byte
  /-- SR, CSR index 1 (R21). -/
  sr : Byte
  /-- CR1, CSR index 2 (R29). -/
  cr1 : Byte
  /-- CR2, CSR index 3 (R32). -/
  cr2 : Byte
  /-- BRR, CSR index 4 (R33). -/
  brr : Byte
  /-- The TX FIFO, oldest byte first (R34); `none` is the spec's "absent" (R44). -/
  txq : Option (List Byte)
  /-- The RX FIFO, oldest byte first (R35); `none` is the spec's "absent" (R44). -/
  rxq : Option (List Byte)
  /-- `tx_interrupt_enabled` (R38). -/
  txInterruptEnabled : Bool
  /-- `rx_interrupt_enabled` (R38). -/
  rxInterruptEnabled : Bool
  /-- `error_interrupt_enabled` (R38). -/
  errorInterruptEnabled : Bool
  /-- `tx_busy` (R36). -/
  txBusy : Bool
  /-- `rx_busy` (R37). -/
  rxBusy : Bool
  /-- `current_error` (R39). -/
  currentError : LatchedError
  /-- `line_out`, the bytes put on the line, oldest first (R40). -/
  lineOut : List Byte
  /-- The refusal mark of R117, kept for the rest of the run: why each refused command was refused, oldest
  first. The mark is set when there is one (log 5). -/
  refusals : List DecodeRefusal
  /-- The responses given on the command port, oldest first (R59, R65; log 8). -/
  responses : List Response
  /-- What the host, the transmitter and the receiver do next, in the total order of R54 (log 2). -/
  schedule : List Event
  /-- The environment's answer to an allocation draw taken in this step (R84; log 4). -/
  allocDraw : Alloc
  /-- The implementation parameters (R7; log 3). No step writes them. -/
  params : Params
  deriving DecidableEq, Repr

/-- What `cfg` is while it holds no value (R44; log 1): the configuration whose INIT field is all
zeros. -/
def UartConfig.unset : UartConfig :=
  { baud := .b9600, parity := .none, dataBits := .seven, stopBits := .one }

/-- The block with parameters `p` at power-on (R126): Uninit, no FIFO, an empty line trace. A register
the spec gives no value at power-on holds zero (R44; log 1), and nothing has passed the ports. -/
def State.powerOn (p : Params) (draw : Alloc) : State :=
  { life := .uninit
    cfg := UartConfig.unset
    dr := 0, sr := 0, cr1 := 0, cr2 := 0, brr := 0
    txq := none, rxq := none
    txInterruptEnabled := false, rxInterruptEnabled := false, errorInterruptEnabled := false
    txBusy := false, rxBusy := false
    currentError := .noError
    lineOut := []
    refusals := []
    responses := []
    schedule := []
    allocDraw := draw
    params := p }

/-- The machine at reset: power-on with the parameters of `Config` (R126). -/
def State.reset : State := State.powerOn Config.params (Config.allocDraw 0)

end Sys2Proof.Machine
end

