-- ==== Sys2Proof/Machine/Operands.lean ====
section
/-! DEFINITION. The operand forms: one bit of a byte (R10), a register by its CSR (R46), and the values
derived from the configuration (R83). -/

namespace Sys2Proof.Machine

open Sys2Proof

/-- `v[k] = 1` (R10). -/
def bitOf (v : Byte) (k : BitIndex) : Bool := v.getLsbD k.toNat

/-- `v[k] <- 1`, the other bits unchanged (R10). -/
def withBitSet (v : Byte) (k : BitIndex) : Byte := v ||| (1#8 <<< k.toNat)

/-- `v[k] <- 0`, the other bits unchanged (R10). -/
def withBitClear (v : Byte) (k : BitIndex) : Byte := v &&& ~~~(1#8 <<< k.toNat)

/-- A Boolean stored in a byte: `zext_8` of one bit (R9, R12). -/
def byteOfBool (b : Bool) : Byte := if b then 1 else 0

/-- `x[reg]` (R10, R46). A read has no side effect (R50). -/
def readCsr (reg : Csr) (s : State) : Byte :=
  match reg with
  | .dr => s.dr
  | .sr => s.sr
  | .cr1 => s.cr1
  | .cr2 => s.cr2
  | .brr => s.brr

/-- `stop_code` (R83): the STOP field in CR2 bits 5:4. -/
def stopCode : StopBits → Byte
  | .one => 0x00
  | .two => 0x20

/-- `DATA_MASK` (R83). -/
def dataMask : DataBits → Byte
  | .seven => 0x7F
  | .eight => 0xFF

/-- `BRR_ENCODE` (R7, R33). -/
def brrEncode (t : BrrTable) : BaudRate → Byte
  | .b9600 => t.at9600
  | .b19200 => t.at19200
  | .b38400 => t.at38400
  | .b57600 => t.at57600
  | .b115200 => t.at115200

end Sys2Proof.Machine
end

