-- ==== Sys2Proof/Machine/Flags.lean ====
section
/-! DEFINITION. The bits of SR (R21) and the error latch (R106). -/

namespace Sys2Proof.Machine

open Sys2Proof

/-- SR.TXE, bit 0 (R22). -/
def srTXE : BitIndex := 0

/-- SR.RXNE, bit 1 (R23). -/
def srRXNE : BitIndex := 1

/-- SR.TC, bit 2 (R24). -/
def srTC : BitIndex := 2

/-- SR.PE, bit 3 (R25). -/
def srPE : BitIndex := 3

/-- SR.FE, bit 4 (R26). -/
def srFE : BitIndex := 4

/-- SR.ORE, bit 5 (R27). -/
def srORE : BitIndex := 5

/-- CR1.UE, bit 0 (R29). -/
def cr1UE : BitIndex := 0

/-- CR1.RE, bit 2 (R29). -/
def cr1RE : BitIndex := 2

/-- CR1.TE, bit 3 (R29). -/
def cr1TE : BitIndex := 3

/-- CR1.RXNEIE, bit 5 (R29). -/
def cr1RXNEIE : BitIndex := 5

/-- CR1.TXEIE, bit 7 (R29). -/
def cr1TXEIE : BitIndex := 7

/-- SR right after INIT: TXE alone (R82, R21). -/
def srAfterInit : Byte := 0x01

/-- SR bit `k`. -/
def State.flag (k : BitIndex) (s : State) : Bool := bitOf s.sr k

/-- `SR.k <- 1` (R10). -/
def State.setFlag (k : BitIndex) (s : State) : State := { s with sr := withBitSet s.sr k }

/-- `SR.k <- 0` (R10). -/
def State.clearFlag (k : BitIndex) (s : State) : State := { s with sr := withBitClear s.sr k }

/-- `SR.k <- b` (R10, R12). -/
def State.putFlag (k : BitIndex) (b : Bool) (s : State) : State :=
  if b then s.setFlag k else s.clearFlag k

/-- The argument of the latch (R106). -/
inductive LineFault where
  | parity | framing | overrun
  deriving DecidableEq, Repr

/-- `latch(k)` (R106): one sticky SR bit, and `current_error` takes the newest fault. -/
def State.latch (k : LineFault) (s : State) : State :=
  match k with
  | .parity => { s.setFlag srPE with currentError := .parityError }
  | .framing => { s.setFlag srFE with currentError := .framingError }
  | .overrun => { s.setFlag srORE with currentError := .overrunError }

/-- What CLEAR_ERROR does to the latch (R105): `current_error` and SR.PE, SR.FE, SR.ORE. -/
def State.clearLatch (s : State) : State :=
  { (((s.clearFlag srPE).clearFlag srFE).clearFlag srORE) with currentError := .noError }

/-- What a transmission in progress does to the flags (R89, R90): `tx_busy` set, TXE and TC clear. -/
def State.beginTransfer (s : State) : State :=
  { ((s.clearFlag srTXE).clearFlag srTC) with txBusy := true }

/-- What draining the last byte does to the flags (R92): `tx_busy` clear, TXE and TC set. -/
def State.endTransfer (s : State) : State :=
  { ((s.setFlag srTXE).setFlag srTC) with txBusy := false }

end Sys2Proof.Machine
end

