-- ==== Sys2Proof/Machine/Ops.lean ====
section
/-! DEFINITION. The operations several meanings share: error codes and responses (R65, R110), the order
of checks (R115), the FIFO primitives and the loops over them (R13, R90, R97), the receive procedure
(R99), the allocation draw (R84) and losing every value (R44). The block takes no exception: every error
is the response of its own step and no state is saved (R112), so `answerErr` stands where a processor's
model has exception entry, and there is no return from one (R119). -/

namespace Sys2Proof.Machine

open Sys2Proof

/-- The outcome of a step of this machine. -/
abbrev Result := Host.Outcome State Fault Refusal

/-- The code of a latched error (R110). -/
def LatchedError.code : LatchedError → Byte
  | .noError => 0x00
  | .framingError => 0x02
  | .parityError => 0x03
  | .overrunError => 0x04

/-- The code of a response error (R110). -/
def ResponseError.code : ResponseError → Byte
  | .nullPointer => 0x01
  | .bufferFull => 0x05
  | .bufferCreateFailure => 0x06
  | .bufferEmpty => 0x07

/-- `Ok(v)`: STATUS 0, VALUE `v` (R65). -/
def Response.ok (v : Byte) : Response := { word := 0x00#8 ++ v, payload := [] }

/-- `Ok(n) with payload out` (R65, R97). -/
def Response.okWith (v : Byte) (out : List Byte) : Response := { word := 0x00#8 ++ v, payload := out }

/-- `Err(code)`: STATUS the code, VALUE 0 (R65). -/
def Response.err (e : ResponseError) : Response := { word := e.code ++ 0x00#8, payload := [] }

/-- The block gives the response `r` (R59). -/
def State.respond (r : Response) (s : State) : State := { s with responses := s.responses ++ [r] }

/-- `return Ok(v)` (R11). -/
def answerOk (v : Byte) (s : State) : Result := .next (s.respond (Response.ok v))

/-- `return Err(e)` (R11): no state changes (R112). -/
def answerErr (e : ResponseError) (s : State) : Result := .next (s.respond (Response.err e))

/-- The refusal mark is set (R117). -/
def State.markRefused (r : DecodeRefusal) (s : State) : State := { s with refusals := s.refusals ++ [r] }

/-- `refuse(reason)`: no response, and no state changes but the mark (R69, R117). The run goes on (log 5). -/
def refuse (r : DecodeRefusal) (s : State) : Result := .next (s.markRefused r)

/-- `if hp = 0: raise Fault(NoInstance)` (R111, R115 step 2). -/
def whenAddressed (hp : Bool) (k : Result) : Result := if hp then k else .fault .noInstance

/-- `if life != Ready: raise Fault(NotInitialised)` (R111, R115 step 4). -/
def whenReady (s : State) (k : Result) : Result :=
  if s.life = .ready then k else .fault .notInitialised

/-- Reading a FIFO: one that does not exist holds no value, and reading that faults (R44). No run
reaches a Ready state without its FIFOs (R17). -/
def withFifo (q : Option (List Byte)) (k : List Byte → Result) : Result :=
  match q with
  | some bytes => k bytes
  | none => .fault .notInitialised

/-- `full(q)` (R13). -/
def fifoFull (cap : Nat) (q : List Byte) : Bool := decide (q.length = cap)

/-- `empty(q)` (R13). -/
def fifoEmpty (q : List Byte) : Bool := q.isEmpty

/-- The loop of R90: push the bytes in order, stopping at the first one that finds the FIFO full. The
FIFO after it, and the bytes accepted. -/
def pushWhileRoom (cap : Nat) (q : List Byte) : List Byte → List Byte × List Byte
  | [] => (q, [])
  | b :: bs =>
    if fifoFull cap q then (q, [])
    else
      let rest := pushWhileRoom cap (q ++ [b]) bs
      (rest.1, b :: rest.2)

/-- The loop of R97: pop up to `m` bytes or until the FIFO is empty. The bytes popped, and the FIFO
after it. -/
def popUpTo : Nat → List Byte → List Byte × List Byte
  | 0, q => ([], q)
  | _ + 1, [] => ([], [])
  | m + 1, b :: q =>
    let rest := popUpTo m q
    (b :: rest.1, rest.2)

/-- A frame shows a parity fault: with no parity bit configured there is none to mismatch (R99). -/
def parityFault (pe : Bool) (s : State) : Bool := pe && decide (s.cfg.parity ≠ .none)

/-- Storing one frame's byte in the RX FIFO `q`, and latching the faults the frame shows (R99, R107). -/
def storeFrame (q : List Byte) (v : Byte) (pe fe : Bool) (s : State) : State :=
  let stored := ({ s with rxq := some (q ++ [v &&& dataMask s.cfg.dataBits]) } : State).setFlag srRXNE
  let checked := if parityFault pe s then stored.latch .parity else stored
  if fe then checked.latch .framing else checked

/-- The receive procedure `receive(v, pe, fe)` (R99). Without an RX FIFO nothing is received. -/
def receive (v : Byte) (pe fe : Bool) (s : State) : State :=
  match s.rxq with
  | none => s
  | some q => if fifoFull s.params.cap q then s.latch .overrun else storeFrame q v pe fe s

/-- `draw alloc` (R84): always Ok when `ALLOC_CAN_FAIL` is false, else the environment's answer. -/
def drawAlloc (s : State) : Alloc := if s.params.allocCanFail then s.allocDraw else .ok

/-- After a failed INIT or a TEARDOWN: no FIFO, Uninit, and every field but `line_out` without a value,
held as at power-on (R44; log 1). The refusal mark stays (R117). -/
def State.release (s : State) : State :=
  { State.powerOn s.params s.allocDraw with
    lineOut := s.lineOut, refusals := s.refusals, responses := s.responses, schedule := s.schedule }

/-- After a successful INIT with configuration `c` (R82, R44). -/
def State.initialised (c : UartConfig) (s : State) : State :=
  { s with
    life := .ready
    cfg := c
    dr := 0x00
    sr := srAfterInit
    cr1 := 0x00
    cr2 := stopCode c.stopBits
    brr := brrEncode s.params.brr c.baud
    txq := some []
    rxq := some []
    txInterruptEnabled := false
    rxInterruptEnabled := false
    errorInterruptEnabled := false
    txBusy := false
    rxBusy := false
    currentError := .noError }

end Sys2Proof.Machine
end

