-- ==== Sys2Proof/Machine/ErrorLatch.lean ====
section
/-! DEFINITION. The error latch (44_error.md): GET_ERROR, CLEAR_ERROR. -/

namespace Sys2Proof.Machine

open Sys2Proof

/-- GET_ERROR (R104). -/
def execGetError (hp : Bool) (s : State) : Result :=
  whenAddressed hp (whenReady s (answerOk s.currentError.code s))

/-- CLEAR_ERROR (R105). -/
def execClearError (hp : Bool) (s : State) : Result :=
  whenAddressed hp (whenReady s (answerOk 0x00 s.clearLatch))

end Sys2Proof.Machine
end

