-- ==== Sys2Proof/Machine/Lifecycle.lean ====
section
/-! DEFINITION. The lifecycle (41_config_init.md): INIT, TEARDOWN. -/

namespace Sys2Proof.Machine

open Sys2Proof

/-- INIT once its NULL_POINTER checks have passed, with the allocation draw taken (R82, R84). -/
def initWith (draw : Alloc) (c : UartConfig) (s : State) : State :=
  match draw with
  | .ok => (s.initialised c).respond (Response.ok 0x00)
  | .txFail => s.release.respond (Response.err .bufferCreateFailure)
  | .rxFail => s.release.respond (Response.err .bufferCreateFailure)

/-- INIT (R82, R85). -/
def execInit (hp : Bool) (cfg : Option UartConfig) (s : State) : Result :=
  match hp, cfg with
  | true, some c => .next (initWith (drawAlloc s) c s)
  | true, none => answerErr .nullPointer s
  | false, _ => answerErr .nullPointer s

/-- TEARDOWN (R86). -/
def execTeardown (hp : Bool) (s : State) : Result :=
  whenAddressed hp (whenReady s (answerOk 0x00 s.release))

end Sys2Proof.Machine
end

