-- ==== Sys2Proof/Machine/Receive.lean ====
section
/-! DEFINITION. The receive path (43_receive.md): RECEIVE_BYTE, RECEIVE_BUFFER, IS_DATA_READY, and the
line event RX_FRAME. -/

namespace Sys2Proof.Machine

open Sys2Proof

/-- Bytes have been popped, `b` the last of them, and `rest` is left: DR and RXNE follow (R96, R97). -/
def State.taken (b : Byte) (rest : List Byte) (s : State) : State :=
  ({ s with rxq := some rest, dr := b } : State).putFlag srRXNE (!fifoEmpty rest)

/-- RECEIVE_BYTE (R96). HP is checked before the lifecycle (R115). -/
def execReceiveByte (hp : Bool) (s : State) : Result :=
  if hp = false then answerErr .nullPointer s
  else
    whenReady s <| withFifo s.rxq fun q =>
      match q with
      | [] => answerErr .bufferEmpty s
      | b :: rest => answerOk b (s.taken b rest)

/-- RECEIVE_BUFFER (R97). -/
def execReceiveBuffer (hp : Bool) (maxLength : BitVec 8) (s : State) : Result :=
  whenAddressed hp <| whenReady s <| withFifo s.rxq fun q =>
    let popped := popUpTo maxLength.toNat q
    match popped.1.getLast? with
    | none => .next (s.respond (Response.okWith 0x00 []))
    | some b =>
      .next ((s.taken b popped.2).respond
        (Response.okWith (BitVec.ofNat 8 popped.1.length) popped.1))

/-- IS_DATA_READY (R98). -/
def execIsDataReady (hp : Bool) (s : State) : Result :=
  whenAddressed hp (whenReady s (answerOk (byteOfBool (s.flag srRXNE)) s))

/-- RX_FRAME (R100). In Uninit a frame is not received and leaves no trace. -/
def execRxFrame (feIn peIn : Bool) (data : Byte) (s : State) : Result :=
  match s.life with
  | .ready => .next (receive data peIn feIn s)
  | .uninit => .next s

end Sys2Proof.Machine
end

