-- ==== Sys2Proof/Machine/RegisterAccess.lean ====
section
/-! DEFINITION. The register commands (40_register_access.md): REG_READ, TEST_BIT, SET_BIT, CLEAR_BIT. -/

namespace Sys2Proof.Machine

open Sys2Proof

/-- REG_READ (R77). -/
def execRegRead (hp : Bool) (reg : Csr) (s : State) : Result :=
  whenAddressed hp (whenReady s (answerOk (readCsr reg s) s))

/-- TEST_BIT (R78). -/
def execTestBit (hp : Bool) (reg : Csr) (bit : BitIndex) (s : State) : Result :=
  whenAddressed hp (whenReady s (answerOk (byteOfBool (bitOf (readCsr reg s) bit)) s))

/-- SET_BIT (R79). No CR1 bit has an effect (R30). -/
def execSetBit (hp : Bool) (bit : BitIndex) (s : State) : Result :=
  whenAddressed hp (whenReady s (answerOk 0x00 { s with cr1 := withBitSet s.cr1 bit }))

/-- CLEAR_BIT (R80). -/
def execClearBit (hp : Bool) (bit : BitIndex) (s : State) : Result :=
  whenAddressed hp (whenReady s (answerOk 0x00 { s with cr1 := withBitClear s.cr1 bit }))

end Sys2Proof.Machine
end

