-- ==== Sys2Proof/Machine/Reserved.lean ====
section
/-! DEFINITION. The table's `reserved` row: opcodes 0xE and 0xF have no meaning (R69 (a)). -/

namespace Sys2Proof.Machine

open Sys2Proof

/-- A word of a reserved opcode is refused, whatever its other bits and whatever the state (R69). -/
def execReserved (_bits : BitVec 13) (s : State) : Result := refuse .reservedEncoding s

end Sys2Proof.Machine
end

