-- ==== Sys2Proof/Machine/Transmit.lean ====
section
/-! DEFINITION. The transmit path (42_transmit.md): SEND_BYTE, SEND_BUFFER, IS_TX_EMPTY, and the line
event TX_SHIFT. -/

namespace Sys2Proof.Machine

open Sys2Proof

/-- The FIFO holds `q`, whose newest byte is `b`, and a transmission is in progress (R89, R90). -/
def State.queued (q : List Byte) (b : Byte) (s : State) : State :=
  ({ s with txq := some q, dr := b } : State).beginTransfer

/-- SEND_BYTE (R89). HP is checked before the lifecycle (R115). -/
def execSendByte (hp : Bool) (data : Byte) (s : State) : Result :=
  if hp = false then answerErr .nullPointer s
  else
    whenReady s <| withFifo s.txq fun q =>
      if fifoFull s.params.cap q then answerErr .bufferFull s
      else answerOk 0x00 (s.queued (q ++ [data]) data)

/-- SEND_BUFFER (R90). -/
def execSendBuffer (hp : Bool) (bytes : List Byte) (s : State) : Result :=
  whenAddressed hp <| whenReady s <| withFifo s.txq fun q =>
    let pushed := pushWhileRoom s.params.cap q bytes
    match pushed.2.getLast? with
    | none => answerOk 0x00 s
    | some b => answerOk (BitVec.ofNat 8 pushed.2.length) (s.queued pushed.1 b)

/-- IS_TX_EMPTY (R91). -/
def execIsTxEmpty (hp : Bool) (s : State) : Result :=
  whenAddressed hp (whenReady s (answerOk (byteOfBool (s.flag srTXE)) s))

/-- The drain of R92 with the FIFO `b :: rest`: the byte goes on the line, then to the receiver under
LOOPBACK (R101), then the flags show a FIFO drained. -/
def drain (b : Byte) (rest : List Byte) (s : State) : State :=
  let v := b &&& dataMask s.cfg.dataBits
  let sent : State := { s with txq := some rest, lineOut := s.lineOut ++ [v] }
  let looped := if s.params.loopback then receive v false false sent else sent
  if fifoEmpty rest then looped.endTransfer else looped

/-- TX_SHIFT (R92). Where it is not enabled it does not occur: nothing changes (log 9). -/
def execTxShift (s : State) : Result :=
  match s.life, s.txq with
  | .ready, some (b :: rest) => .next (drain b rest s)
  | _, _ => .next s

end Sys2Proof.Machine
end

