-- ==== Sys2Proof/Machine/Dispatch.lean ====
section
/-! DEFINITION. The meaning of each instruction, one arm per constructor of Instr. -/

namespace Sys2Proof.Machine

open Sys2Proof

/-- Run one decoded instruction, as one atomic step (R53). -/
def exec (i : Instr) (s : State) : Host.Outcome State Fault Refusal :=
  match i with
  | .init hp cfg => Sys2Proof.Machine.execInit hp cfg s
  | .sendByte hp data => Sys2Proof.Machine.execSendByte hp data s
  | .sendBuffer hp bytes => Sys2Proof.Machine.execSendBuffer hp bytes s
  | .isTxEmpty hp => Sys2Proof.Machine.execIsTxEmpty hp s
  | .receiveByte hp => Sys2Proof.Machine.execReceiveByte hp s
  | .receiveBuffer hp maxLength => Sys2Proof.Machine.execReceiveBuffer hp maxLength s
  | .isDataReady hp => Sys2Proof.Machine.execIsDataReady hp s
  | .getError hp => Sys2Proof.Machine.execGetError hp s
  | .clearError hp => Sys2Proof.Machine.execClearError hp s
  | .regRead hp reg => Sys2Proof.Machine.execRegRead hp reg s
  | .testBit hp reg bit => Sys2Proof.Machine.execTestBit hp reg bit s
  | .setBit hp bit => Sys2Proof.Machine.execSetBit hp bit s
  | .clearBit hp bit => Sys2Proof.Machine.execClearBit hp bit s
  | .teardown hp => Sys2Proof.Machine.execTeardown hp s
  | .rxFrame feIn peIn data => Sys2Proof.Machine.execRxFrame feIn peIn data s
  | .txShift => Sys2Proof.Machine.execTxShift s
  | .reserved bits => Sys2Proof.Machine.execReserved bits s

end Sys2Proof.Machine
end

