-- ==== Sys2Proof/WellFormed.lean ====
section
/-! DEFINITION. The one bound of the encoding that the types of `Instr` do not carry: LEN has 8 bits
(R64), so a SEND_BUFFER names at most 255 bytes. -/

namespace Sys2Proof

/-- The instruction is one the encodings of R62 to R68 can express. -/
def Instr.wellFormed : Instr → Bool
  | .init _ _ => true
  | .sendByte _ _ => true
  | .sendBuffer _ bytes => decide (bytes.length ≤ 255)
  | .isTxEmpty _ => true
  | .receiveByte _ => true
  | .receiveBuffer _ _ => true
  | .isDataReady _ => true
  | .getError _ => true
  | .clearError _ => true
  | .regRead _ _ => true
  | .testBit _ _ _ => true
  | .setBit _ _ => true
  | .clearBit _ _ => true
  | .teardown _ => true
  | .rxFrame _ _ _ => true
  | .txShift => true
  | .reserved _ => true

end Sys2Proof
end

