-- ==== Sys2Proof/Decode.lean ====
section
/-! DEFINITION. Decoding what arrives at the ports (R70; R67 for the line word), and after it the
encoder (R75), both from the formats of R60 to R66. Decoding reads no state (R70). -/

namespace Sys2Proof

/-- `OP = w[15:12]` (R60). -/
def opcodeOf (w : CommandWord) : BitVec 4 := w.extractLsb' 12 4

/-- `HP = w[11]` (R60). -/
def hpOf (w : CommandWord) : Bool := w.getLsbD 11

/-- `BAUD` of format I; 5 to 7 are reserved (R63). -/
def decodeBaud (b : BitVec 3) : Option BaudRate :=
  match b.toNat with
  | 0 => some .b9600
  | 1 => some .b19200
  | 2 => some .b38400
  | 3 => some .b57600
  | 4 => some .b115200
  | _ => none

/-- `PAR` of format I; 3 is reserved (R63). -/
def decodeParity (b : BitVec 2) : Option Parity :=
  match b.toNat with
  | 0 => some .none
  | 1 => some .even
  | 2 => some .odd
  | _ => none

/-- `D8` of format I (R63). -/
def decodeDataBits (d8 : Bool) : DataBits := if d8 then .eight else .seven

/-- `S2` of format I (R63). -/
def decodeStopBits (s2 : Bool) : StopBits := if s2 then .two else .one

/-- `REG` of format R; 5 to 7 are reserved (R46, R66). -/
def decodeCsr (r : BitVec 3) : Option Csr :=
  match r.toNat with
  | 0 => some .dr
  | 1 => some .sr
  | 2 => some .cr1
  | 3 => some .cr2
  | 4 => some .brr
  | _ => none

/-- Format I with CP = 1: the configuration fields (R63). -/
def decodeConfig (w : CommandWord) : Option UartConfig :=
  match decodeBaud (w.extractLsb' 0 3), decodeParity (w.extractLsb' 3 2) with
  | some baud, some parity =>
    some { baud := baud, parity := parity
           dataBits := decodeDataBits (w.getLsbD 5), stopBits := decodeStopBits (w.getLsbD 6) }
  | _, _ => none

/-- Format I (R63): INIT. -/
def decodeInit (w : CommandWord) : Except DecodeRefusal Instr :=
  if w.extractLsb' 7 3 ≠ 0#3 then .error .reservedEncoding
  else if w.getLsbD 10 = false then
    if w.extractLsb' 0 7 ≠ 0#7 then .error .reservedEncoding else .ok (.init (hpOf w) none)
  else
    match decodeConfig w with
    | some c => .ok (.init (hpOf w) (some c))
    | none => .error .reservedEncoding

/-- Format N (R62): no operand. -/
def decodeNoOperand (mk : Bool → Instr) (w : CommandWord) : Except DecodeRefusal Instr :=
  if w.extractLsb' 0 11 ≠ 0#11 then .error .reservedEncoding else .ok (mk (hpOf w))

/-- Formats B and L without a payload (R64): an 8-bit operand. -/
def decodeByteOperand (mk : Bool → Byte → Instr) (w : CommandWord) : Except DecodeRefusal Instr :=
  if w.extractLsb' 8 3 ≠ 0#3 then .error .reservedEncoding
  else .ok (mk (hpOf w) (w.extractLsb' 0 8))

/-- Format L with a payload (R64, R70): SEND_BUFFER. -/
def decodeSendBuffer (w : CommandWord) (p : List Byte) : Except DecodeRefusal Instr :=
  if w.extractLsb' 8 3 ≠ 0#3 then .error .reservedEncoding
  else if p.length ≠ (w.extractLsb' 0 8).toNat then .error .payloadMismatch
  else .ok (.sendBuffer (hpOf w) p)

/-- Format R, REG_READ (R66): BIT must be 0. -/
def decodeRegRead (w : CommandWord) : Except DecodeRefusal Instr :=
  match decodeCsr (w.extractLsb' 8 3) with
  | none => .error .reservedEncoding
  | some r => if w.extractLsb' 0 8 ≠ 0#8 then .error .reservedEncoding else .ok (.regRead (hpOf w) r)

/-- Format R, TEST_BIT (R66). -/
def decodeTestBit (w : CommandWord) : Except DecodeRefusal Instr :=
  match decodeCsr (w.extractLsb' 8 3) with
  | none => .error .reservedEncoding
  | some r =>
    if w.extractLsb' 3 5 ≠ 0#5 then .error .reservedEncoding
    else .ok (.testBit (hpOf w) r (w.extractLsb' 0 3))

/-- Format R, SET_BIT and CLEAR_BIT (R66): REG must be 2, CR1. -/
def decodeCr1Bit (mk : Bool → BitIndex → Instr) (w : CommandWord) : Except DecodeRefusal Instr :=
  if w.extractLsb' 8 3 ≠ 2#3 ∨ w.extractLsb' 3 5 ≠ 0#5 then .error .reservedEncoding
  else .ok (mk (hpOf w) (w.extractLsb' 0 3))

/-- The decode function of R70. The two reserved opcodes decode to `Instr.reserved`, whose meaning is
the refusal R70 gives them (log 6). -/
def decodeCommand (w : CommandWord) (p : List Byte) : Except DecodeRefusal Instr :=
  if opcodeOf w ≠ 0x2#4 ∧ p ≠ [] then .error .payloadMismatch
  else
    match (opcodeOf w).toNat with
    | 0x0 => decodeInit w
    | 0x1 => decodeByteOperand .sendByte w
    | 0x2 => decodeSendBuffer w p
    | 0x3 => decodeNoOperand .isTxEmpty w
    | 0x4 => decodeNoOperand .receiveByte w
    | 0x5 => decodeByteOperand .receiveBuffer w
    | 0x6 => decodeNoOperand .isDataReady w
    | 0x7 => decodeNoOperand .getError w
    | 0x8 => decodeNoOperand .clearError w
    | 0x9 => decodeRegRead w
    | 0xA => decodeTestBit w
    | 0xB => decodeCr1Bit .setBit w
    | 0xC => decodeCr1Bit .clearBit w
    | 0xD => decodeNoOperand .teardown w
    | _   => .ok (.reserved (w.extractLsb' 0 13))

/-- The line word's fields (R67); all 1024 values are legal. -/
def decodeFrame (f : LineWord) : Instr :=
  .rxFrame (f.getLsbD 9) (f.getLsbD 8) (f.extractLsb' 0 8)

/-- Decode what arrived at either port (R70, R67, R68). -/
def decode : PortInput → Except DecodeRefusal Instr
  | .command w p => decodeCommand w p
  | .frame f => .ok (decodeFrame f)
  | .shift => .ok .txShift

/-- `BAUD` of a baud rate (R63). -/
def encodeBaud : BaudRate → BitVec 3
  | .b9600 => 0
  | .b19200 => 1
  | .b38400 => 2
  | .b57600 => 3
  | .b115200 => 4

/-- `PAR` of a parity (R63). -/
def encodeParity : Parity → BitVec 2
  | .none => 0
  | .even => 1
  | .odd => 2

/-- `D8` (R63). -/
def encodeDataBits : DataBits → Bool
  | .seven => false
  | .eight => true

/-- `S2` (R63). -/
def encodeStopBits : StopBits → Bool
  | .one => false
  | .two => true

/-- `REG` of a register: its CSR index (R46, R66). -/
def encodeCsr : Csr → BitVec 3
  | .dr => 0
  | .sr => 1
  | .cr1 => 2
  | .cr2 => 3
  | .brr => 4

/-- Format N (R62). -/
def formatN (op : BitVec 4) (hp : Bool) : CommandWord := op ++ BitVec.ofBool hp ++ 0#11

/-- Formats B and L (R64). -/
def formatB (op : BitVec 4) (hp : Bool) (operand : BitVec 8) : CommandWord :=
  op ++ BitVec.ofBool hp ++ 0#3 ++ operand

/-- Format I (R63). -/
def formatI (hp : Bool) : Option UartConfig → CommandWord
  | none => 0x0#4 ++ BitVec.ofBool hp ++ 0#1 ++ 0#3 ++ 0#7
  | some c =>
    0x0#4 ++ BitVec.ofBool hp ++ 1#1 ++ 0#3 ++ BitVec.ofBool (encodeStopBits c.stopBits)
      ++ BitVec.ofBool (encodeDataBits c.dataBits) ++ encodeParity c.parity ++ encodeBaud c.baud

/-- Format R (R66). -/
def formatR (op : BitVec 4) (hp : Bool) (reg : BitVec 3) (bit : BitIndex) : CommandWord :=
  op ++ BitVec.ofBool hp ++ reg ++ 0#5 ++ bit

/-- The words of an instruction (R75): OP, HP and the operand fields of its format, every other bit
zero. A well-formed instruction has exactly these. -/
def encode : Instr → PortInput
  | .init hp cfg => .command (formatI hp cfg) []
  | .sendByte hp data => .command (formatB 0x1#4 hp data) []
  | .sendBuffer hp bytes => .command (formatB 0x2#4 hp (BitVec.ofNat 8 bytes.length)) bytes
  | .isTxEmpty hp => .command (formatN 0x3#4 hp) []
  | .receiveByte hp => .command (formatN 0x4#4 hp) []
  | .receiveBuffer hp m => .command (formatB 0x5#4 hp m) []
  | .isDataReady hp => .command (formatN 0x6#4 hp) []
  | .getError hp => .command (formatN 0x7#4 hp) []
  | .clearError hp => .command (formatN 0x8#4 hp) []
  | .regRead hp r => .command (formatR 0x9#4 hp (encodeCsr r) 0#3) []
  | .testBit hp r k => .command (formatR 0xA#4 hp (encodeCsr r) k) []
  | .setBit hp k => .command (formatR 0xB#4 hp (encodeCsr .cr1) k) []
  | .clearBit hp k => .command (formatR 0xC#4 hp (encodeCsr .cr1) k) []
  | .teardown hp => .command (formatN 0xD#4 hp) []
  | .rxFrame fe pe v => .frame (BitVec.ofBool fe ++ BitVec.ofBool pe ++ v)
  | .txShift => .shift
  | .reserved b => .command (0b111#3 ++ b) []

/-- The payload of zeros a table word carries: LEN bytes for SEND_BUFFER, none for the others (R59,
R64). -/
def zeroPayload (w : CommandWord) : List Byte :=
  if opcodeOf w = 0x2#4 then List.replicate (w.extractLsb' 0 8).toNat 0#8 else []

/-- What a row of spec/opcode_table.json of `nbits` bits puts on a port: a row of 10 bits is the line
word, a row of 0 bits the drain, and the others are command words (R59, R67, R68, R76; log 7). -/
def tableInput (nbits w : Nat) : PortInput :=
  match nbits with
  | 0 => .shift
  | 10 => .frame (BitVec.ofNat 10 w)
  | _ => .command (BitVec.ofNat 16 w) (zeroPayload (BitVec.ofNat 16 w))

/-- The instruction the decoder reads from a row's word. -/
def decodeTableWord (nbits w : Nat) : Option Instr :=
  match decode (tableInput nbits w) with
  | .ok i => some i
  | .error _ => none

end Sys2Proof
end

