-- ==== Sys2Proof/Machine/Fetch.lean ====
section
/-! DEFINITION. Taking what arrives next at the ports (R54, R59, R76). The block fetches no instruction
(R57): its program is the order in which the host and the line act, held in `schedule` (log 2). -/

namespace Sys2Proof.Machine

open Sys2Proof

/-- The state in which the event `e` runs, `rest` the events after it. -/
def State.taking (e : Event) (rest : List Event) (s : State) : State :=
  { s with schedule := rest, allocDraw := e.alloc }

/-- A row's word put where the next step takes it; the allocation draw with it is free (log 4). -/
def State.placing (nbits w : Nat) (s : State) : State :=
  { s with
    schedule :=
      { input := tableInput nbits w, alloc := Config.allocDraw s.schedule.length } :: s.schedule }

end Sys2Proof.Machine
end

