-- ==== Sys2Proof/Machine/Step.lean ====
section
/-! DEFINITION. One step of the block (R53, R54), and placing a word where the next step takes it. -/

namespace Sys2Proof.Machine

open Sys2Proof

/-- Take the next event of the schedule, decode it and run it, or refuse a command the decoder gives no
meaning (R117). With no event left no agent acts, and nothing changes (R124; log 2). -/
def step (s : State) : Host.Outcome State Fault Refusal :=
  match s.schedule with
  | [] => .next s
  | e :: rest =>
    match decode e.input with
    | .ok i => exec i (s.taking e rest)
    | .error r => refuse r (s.taking e rest)

/-- `s` with a row's word as the very next event (log 2, log 7). -/
def State.withFetchWord (s : State) (nbits w : Nat) : State := s.placing nbits w

end Sys2Proof.Machine
end

