-- ==== Sys2Proof/Machine/Assembler.lean ====
section
/-! DEFINITION. The assembler syntax of R72 as data: one line of a program, and the command or line event
it stands for. Splitting a line's text into its operands, and comments, are left out (log 10). -/

namespace Sys2Proof.Machine

open Sys2Proof

/-- A bit operand: an index 0 to 7, or a bit name of SR or CR1 (R72). -/
inductive BitName where
  | index (k : BitIndex)
  | txe | rxne | tc | pe | fe | ore
  | ue | re | te | rxneie | txeie
  deriving DecidableEq, Repr

/-- The index a bit operand stands for (R72, R21, R29). -/
def BitName.toIndex : BitName → BitIndex
  | .index k => k
  | .txe => 0
  | .rxne => 1
  | .tc => 2
  | .pe => 3
  | .fe => 4
  | .ore => 5
  | .ue => 0
  | .re => 2
  | .te => 3
  | .rxneie => 5
  | .txeie => 7

/-- The host mnemonics of R72 with their operands. -/
inductive HostLine where
  | init (baud : BaudRate) (parity : Parity) (dataBits : DataBits) (stopBits : StopBits)
  | initNoCfg
  | sendByte (imm8 : Byte)
  | sendBuffer (bytes : List Byte)
  | isTxEmpty
  | receiveByte
  | receiveBuffer (imm8 : Byte)
  | isDataReady
  | getError
  | clearError
  | regRead (reg : Csr)
  | testBit (reg : Csr) (bit : BitName)
  | setBit (bit : BitName)
  | clearBit (bit : BitName)
  | teardown
  deriving DecidableEq, Repr

/-- A line of a program: a host command, `nh` being the suffix `.NH`, or a line event that fixes the
schedule, `LINE.TX` or `LINE.RX` (R72). -/
inductive AsmLine where
  | host (nh : Bool) (line : HostLine)
  | lineTx
  | lineRx (imm8 : Byte) (pe fe : Bool)
  deriving DecidableEq, Repr

/-- The command of a host mnemonic, with HP as given (R72). -/
def HostLine.toInstr (hp : Bool) : HostLine → Instr
  | .init baud parity dataBits stopBits => .init hp (some ⟨baud, parity, dataBits, stopBits⟩)
  | .initNoCfg => .init hp none
  | .sendByte b => .sendByte hp b
  | .sendBuffer bs => .sendBuffer hp bs
  | .isTxEmpty => .isTxEmpty hp
  | .receiveByte => .receiveByte hp
  | .receiveBuffer m => .receiveBuffer hp m
  | .isDataReady => .isDataReady hp
  | .getError => .getError hp
  | .clearError => .clearError hp
  | .regRead r => .regRead hp r
  | .testBit r k => .testBit hp r k.toIndex
  | .setBit k => .setBit hp k.toIndex
  | .clearBit k => .clearBit hp k.toIndex
  | .teardown => .teardown hp

/-- What a line of a program stands for: without `.NH`, HP = 1 (R72). -/
def AsmLine.toInstr : AsmLine → Instr
  | .host nh line => line.toInstr (!nh)
  | .lineTx => .txShift
  | .lineRx v pe fe => .rxFrame fe pe v

/-- Assembling: the words a line puts on its port (R72, R75). -/
def assemble (line : AsmLine) : PortInput := encode line.toInstr

end Sys2Proof.Machine
end

