-- ==== Sys2Proof/Safety.lean ====
section
/-! DEFINITION. What claims about runs are stated in: the invariants of R17 and R41 to R43, the rows of
R111, R69 as conditions on the fields of a word, and the clean end of a run (R137). -/

namespace Sys2Proof.Machine

open Sys2Proof

/-- SR.PE, SR.FE and SR.ORE against `current_error` (R43 (b)). -/
structure ErrorInv (sr : Byte) (e : LatchedError) : Prop where
  /-- Some error bit is set exactly when an error is latched. -/
  some_bit : (bitOf sr srPE || bitOf sr srFE || bitOf sr srORE) = decide (e ≠ .noError)
  parity : e = .parityError → bitOf sr srPE = true
  framing : e = .framingError → bitOf sr srFE = true
  overrun : e = .overrunError → bitOf sr srORE = true

/-- What holds of a Ready block with the FIFOs `tx` and `rx` (R34, R35, R41, R42, R43). -/
structure ReadyInv (s : State) (tx rx : List Byte) : Prop where
  tx_bound : tx.length ≤ s.params.cap
  rx_bound : rx.length ≤ s.params.cap
  /-- R41. -/
  busy : s.txBusy = !tx.isEmpty
  /-- R41. -/
  txe : bitOf s.sr srTXE = tx.isEmpty
  /-- R42. -/
  rxne : bitOf s.sr srRXNE = !rx.isEmpty
  /-- R43 (a). -/
  cr2 : s.cr2 = stopCode s.cfg.stopBits
  /-- R43 (a). -/
  brr : s.brr = brrEncode s.params.brr s.cfg.baud
  /-- R43 (b). -/
  error : ErrorInv s.sr s.currentError
  /-- R43 (c). -/
  tc : bitOf s.sr srTC = true → bitOf s.sr srTXE = true
  /-- R43 (d), R28. -/
  sr_reserved : s.sr &&& 0xC0 = 0
  /-- R43 (e), R37. -/
  rx_busy : s.rxBusy = false
  /-- R43 (e), R38. -/
  tx_interrupt : s.txInterruptEnabled = false
  rx_interrupt : s.rxInterruptEnabled = false
  error_interrupt : s.errorInterruptEnabled = false

/-- The invariant of the block: legal parameters, FIFOs exactly in the Ready state (R17, R44), and there
what `ReadyInv` says. -/
structure State.Inv (s : State) : Prop where
  params : s.params.wf
  uninit : s.life = .uninit → s.txq = none ∧ s.rxq = none
  ready : s.life = .ready → ∃ tx rx, s.txq = some tx ∧ s.rxq = some rx ∧ ReadyInv s tx rx

/-- The instruction is a host command, not a line event (R61, R76). -/
def isCommand : Instr → Bool
  | .init _ _ | .sendByte _ _ | .sendBuffer _ _ | .isTxEmpty _ | .receiveByte _ | .receiveBuffer _ _
  | .isDataReady _ | .getError _ | .clearError _ | .regRead _ _ | .testBit _ _ _ | .setBit _ _
  | .clearBit _ _ | .teardown _ | .reserved _ => true
  | .rxFrame _ _ _ | .txShift => false

/-- The HP bit of a command (R60); a line event has none, and is not addressed. -/
def isAddressed : Instr → Bool
  | .init hp _ | .sendByte hp _ | .sendBuffer hp _ | .isTxEmpty hp | .receiveByte hp
  | .receiveBuffer hp _ | .isDataReady hp | .getError hp | .clearError hp | .regRead hp _
  | .testBit hp _ _ | .setBit hp _ | .clearBit hp _ | .teardown hp => hp
  | .reserved bits => bits.getLsbD 11
  | .rxFrame _ _ _ | .txShift => false

/-- The fault of a command, by its row of R111, in the order of R115. -/
def faultOf (life : Life) : Instr → Option Fault
  | .init _ _ => none
  | .sendByte hp _ => if hp = true ∧ life = .uninit then some .notInitialised else none
  | .receiveByte hp => if hp = true ∧ life = .uninit then some .notInitialised else none
  | .rxFrame _ _ _ => none
  | .txShift => none
  | .reserved _ => none
  | .sendBuffer hp _ | .isTxEmpty hp | .receiveBuffer hp _ | .isDataReady hp | .getError hp
  | .clearError hp | .regRead hp _ | .testBit hp _ _ | .setBit hp _ | .clearBit hp _ | .teardown hp =>
    if hp = false then some .noInstance
    else if life = .uninit then some .notInitialised else none

/-- R69 (a) to (e), as conditions on the fields of a command word. -/
def reservedWord (w : CommandWord) : Prop :=
  let op := w.extractLsb' 12 4
  -- (a)
  (op = 0xE#4 ∨ op = 0xF#4) ∨
  -- (b), format I
  (op = 0x0#4 ∧ (w.extractLsb' 7 3 ≠ 0 ∨ (w.getLsbD 10 = false ∧ w.extractLsb' 0 7 ≠ 0))) ∨
  -- (b), formats B and L
  ((op = 0x1#4 ∨ op = 0x2#4 ∨ op = 0x5#4) ∧ w.extractLsb' 8 3 ≠ 0) ∨
  -- (b), format N
  ((op = 0x3#4 ∨ op = 0x4#4 ∨ op = 0x6#4 ∨ op = 0x7#4 ∨ op = 0x8#4 ∨ op = 0xD#4) ∧
    w.extractLsb' 0 11 ≠ 0) ∨
  -- (b), format R
  (op = 0x9#4 ∧ w.extractLsb' 0 8 ≠ 0) ∨
  ((op = 0xA#4 ∨ op = 0xB#4 ∨ op = 0xC#4) ∧ w.extractLsb' 3 5 ≠ 0) ∨
  -- (c)
  (op = 0x0#4 ∧ w.getLsbD 10 = true ∧ (5#3 ≤ w.extractLsb' 0 3 ∨ w.extractLsb' 3 2 = 3#2)) ∨
  -- (d)
  ((op = 0x9#4 ∨ op = 0xA#4) ∧ 5#3 ≤ w.extractLsb' 8 3) ∨
  -- (e)
  ((op = 0xB#4 ∨ op = 0xC#4) ∧ w.extractLsb' 8 3 ≠ 2#3)

/-- R69 (f) and (g), on a word and its payload. -/
def badPayload (w : CommandWord) (p : List Byte) : Prop :=
  if w.extractLsb' 12 4 = 0x2#4 then p.length ≠ (w.extractLsb' 0 8).toNat else p ≠ []

/-- The event is a host command, whatever the decoder makes of it (R59), and not a line event (R76). -/
def isHostCommand (e : Event) : Bool :=
  match e.input with
  | .command _ _ => true
  | .frame _ => false
  | .shift => false

/-- The number of steps up to and including the last host command of a schedule; the line events after it
are not counted. Without a host command there is none (R137; log 14). -/
def stepsToLastCommand : List Event → Nat
  | [] => 0
  | e :: rest =>
    match stepsToLastCommand rest with
    | 0 => if isHostCommand e then 1 else 0
    | n + 1 => n + 2

/-- The run from `s` ends cleanly in `t`: the host has issued the last command of the schedule and received
its response, no step faulted, and no command was refused. The line events still in the schedule of `t` have
not run (R137; log 14). -/
def endsCleanly (s t : State) : Prop :=
  Host.Core.run Sys2Proof.core (stepsToLastCommand s.schedule) s = .next t ∧ t.refusals = s.refusals

end Sys2Proof.Machine
end

