-- ==== Sys2Proof/Certificates/Slice0/Obligations.lean ====
section
/-! DEFINITION. The statements for the provers. A response is written as its 16-bit word (R65), a change
of SR as the mask that makes it (R21), so that a statement does not repeat the model's own operations.
A next state given as an update of `s` is also the frame: every field not named is unchanged. -/

open Sys2Proof Sys2Proof.Machine

/-! ### Reset, the invariant, and the step -/

/-- R126, R44, R129: at power-on, whatever the parameters, the block is Uninit, its line trace is empty, no
FIFO exists, and every addressed command but INIT faults, whatever its operands, so no other field can be
read. The table's `reserved` row is no command (R69). -/
def Obligations.PowerOnHoldsNoValue : Prop :=
  ∀ (p : Params) (d : Alloc) (s : State), s = State.powerOn p d ∨ s = State.reset →
    s.life = .uninit ∧ s.lineOut = [] ∧ s.txq = none ∧ s.rxq = none ∧
    ∀ i : Instr, isCommand i = true → isAddressed i = true →
      (∀ hp cfg, i ≠ .init hp cfg) → (∀ bits, i ≠ .reserved bits) →
      exec i s = .fault .notInitialised

/-- The invariant holds at reset, whatever the OPEN parameters of R7 are there. -/
def Obligations.ResetMeetsInvariant : Prop := State.reset.Inv

/-- R17, R34, R35, R41, R42, R43: every step keeps the invariant, from every state that meets it. -/
def Obligations.StepKeepsInvariant : Prop :=
  ∀ s t : State, s.Inv → step s = .next t → t.Inv

/-- R41, R42: in every Ready state a run from power-on reaches, whatever the parameters and the schedule,
TXE, `tx_busy` and RXNE show what the FIFOs hold; and it meets the invariant. -/
def Obligations.ReachedReadyStatesShowTheirFifos : Prop :=
  ∀ (p : Params) (d : Alloc) (events : List Event) (k : Nat) (t : State), p.wf →
    Host.Core.run Sys2Proof.core k { State.powerOn p d with schedule := events } = .next t →
    t.Inv ∧
    (t.life = .ready → ∃ tx rx, t.txq = some tx ∧ t.rxq = some rx ∧
      t.sr.getLsbD 0 = (!t.txBusy && decide (tx.length ≠ p.cap)) ∧
      t.txBusy = decide (tx ≠ []) ∧ t.sr.getLsbD 0 = decide (tx = []) ∧
      t.sr.getLsbD 1 = decide (rx ≠ []))

/-- R41, first equation: TXE against `tx_busy` and `full(txq)`. It needs `CAP >= 1`. -/
def Obligations.TxeShowsIdleAndRoom : Prop :=
  ∀ (s : State) (q : List Byte), s.Inv → s.life = .ready → s.txq = some q →
    s.sr.getLsbD 0 = (!s.txBusy && decide (q.length ≠ s.params.cap))

/-- R70, R53: when the next event decodes to an instruction, the step runs it, with that event taken off
the schedule and its allocation draw in place. The schedule is the model's own (log 2). -/
def Obligations.StepRunsDecodedInstruction : Prop :=
  ∀ (s : State) (e : Event) (rest : List Event) (i : Instr),
    s.schedule = e :: rest → decode e.input = .ok i →
      step s = exec i { s with schedule := rest, allocDraw := e.alloc }

/-- R124: with no event left, no agent acts and the step changes nothing. The model's choice (log 2). -/
def Obligations.IdleStepChangesNothing : Prop :=
  ∀ s : State, s.schedule = [] → step s = .next s

/-- R7, R54: a step that goes on takes exactly the next event of the schedule, and writes no parameter.
The schedule and the place of the parameters are the model's own (log 2, log 3). -/
def Obligations.StepTakesOneEventAndKeepsParameters : Prop :=
  ∀ s t : State, step s = .next t → t.schedule = s.schedule.tail ∧ t.params = s.params

/-- R69, R70, R117: a command is refused exactly when one of (a) to (g) holds, whatever HP and the state. It
gets no response, changes no state but the refusal mark, and the mark has the reason R69 gives; where both
kinds of reason hold, the one R70 finds first. A line event is never refused. That a refused command ends in
a next state and no step ends refused is DEDUCED, and the mark's form a list of reasons is the model's choice
(log 5), as are the schedule (log 2) and the place of the draw (log 4). -/
def Obligations.StepRefusesExactlyReservedWords : Prop :=
  ∀ (s : State) (rest : List Event) (a : Alloc),
    (∀ (w : CommandWord) (p : List Byte), s.schedule = ⟨.command w p, a⟩ :: rest →
      (reservedWord w ∨ badPayload w p →
        ∃ r : DecodeRefusal,
          step s = .next { s with schedule := rest, allocDraw := a, refusals := s.refusals ++ [r] } ∧
          (¬ badPayload w p → r = .reservedEncoding) ∧ (¬ reservedWord w → r = .payloadMismatch) ∧
          (reservedWord w → badPayload w p →
            r = if w.extractLsb' 12 4 = 0x2#4 then .reservedEncoding else .payloadMismatch)) ∧
      (¬ reservedWord w → ¬ badPayload w p → ∀ t, step s = .next t → t.refusals = s.refusals)) ∧
    (∀ f t, s.schedule = ⟨.frame f, a⟩ :: rest → step s = .next t → t.refusals = s.refusals) ∧
    (∀ t, s.schedule = ⟨.shift, a⟩ :: rest → step s = .next t → t.refusals = s.refusals) ∧
    (∀ r, step s ≠ .refused r)

/-- R111, R115, R116: an instruction faults exactly where its row of R111 says so, and with that fault. -/
def Obligations.FaultsAreExactlyTheTableOfOutcomes : Prop :=
  ∀ (i : Instr) (s : State) (f : Fault), s.Inv → (exec i s = .fault f ↔ faultOf s.life i = some f)

/-! ### Encoding -/

/-- R75, and R67, R68, R76 for the line events: each instruction with its operands has exactly one word.
Encoding then decoding gives a well-formed instruction back, and whatever decodes is the encoding of what it
decodes to. R75 speaks of admitted commands; that decode gives the opcodes 0xE and 0xF the instruction
`reserved`, where R70 refuses them, is the model's choice (log 6). -/
def Obligations.EachInstructionHasExactlyOneWord : Prop :=
  (∀ i : Instr, i.wellFormed = true → decode (encode i) = .ok i) ∧
  (∀ (x : PortInput) (i : Instr), decode x = .ok i → encode i = x ∧ i.wellFormed = true)

/-- R74: the worked encodings, assembled and decoded. -/
def Obligations.WorkedEncodingsAssembleAndDecode : Prop :=
  ∀ p ∈ ([
    (.host false (.init .b9600 .none .eight .one), .command 0x0C20 []),
    (.host false (.init .b38400 .even .eight .two), .command 0x0C6A []),
    (.host false (.init .b115200 .odd .seven .two), .command 0x0C54 []),
    (.host false .initNoCfg, .command 0x0800 []),
    (.host true (.init .b9600 .none .eight .one), .command 0x0420 []),
    (.host false (.sendByte 0x41), .command 0x1841 []),
    (.host false (.sendBuffer [0x10, 0x20, 0x30]), .command 0x2803 [0x10, 0x20, 0x30]),
    (.host false .isTxEmpty, .command 0x3800 []),
    (.host false .receiveByte, .command 0x4800 []),
    (.host false (.receiveBuffer 2), .command 0x5802 []),
    (.host false .isDataReady, .command 0x6800 []),
    (.host false .getError, .command 0x7800 []),
    (.host false .clearError, .command 0x8800 []),
    (.host false (.regRead .sr), .command 0x9900 []),
    (.host false (.regRead .cr1), .command 0x9A00 []),
    (.host false (.regRead .cr2), .command 0x9B00 []),
    (.host false (.regRead .brr), .command 0x9C00 []),
    (.host false (.testBit .sr .txe), .command 0xA900 []),
    (.host false (.testBit .sr .pe), .command 0xA903 []),
    (.host false (.setBit .ue), .command 0xBA00 []),
    (.host false (.setBit .te), .command 0xBA03 []),
    (.host false (.clearBit .te), .command 0xCA03 []),
    (.host false .teardown, .command 0xD800 []),
    (.lineRx 0x55 true false, .frame 0x155),
    (.lineRx 0xAA false true, .frame 0x2AA)] : List (AsmLine × PortInput)),
    assemble p.1 = p.2 ∧ decode p.2 = .ok p.1.toInstr

/-! ### The register commands -/

/-- R77: REG_READ. -/
def Obligations.RegReadAnswersWholeRegister : Prop :=
  (∀ reg s, exec (.regRead false reg) s = .fault .noInstance) ∧
  (∀ reg s, s.life = .uninit → exec (.regRead true reg) s = .fault .notInitialised) ∧
  (∀ s : State, s.life = .ready →
    exec (.regRead true .dr) s
      = .next { s with responses := s.responses ++ [⟨0x00#8 ++ s.dr, []⟩] } ∧
    exec (.regRead true .sr) s
      = .next { s with responses := s.responses ++ [⟨0x00#8 ++ s.sr, []⟩] } ∧
    exec (.regRead true .cr1) s
      = .next { s with responses := s.responses ++ [⟨0x00#8 ++ s.cr1, []⟩] } ∧
    exec (.regRead true .cr2) s
      = .next { s with responses := s.responses ++ [⟨0x00#8 ++ s.cr2, []⟩] } ∧
    exec (.regRead true .brr) s
      = .next { s with responses := s.responses ++ [⟨0x00#8 ++ s.brr, []⟩] }) ∧
  (∀ hp : Bool,
    decode (.command (0x9#4 ++ BitVec.ofBool hp ++ 0#3 ++ 0#8) []) = .ok (.regRead hp .dr) ∧
    decode (.command (0x9#4 ++ BitVec.ofBool hp ++ 1#3 ++ 0#8) []) = .ok (.regRead hp .sr) ∧
    decode (.command (0x9#4 ++ BitVec.ofBool hp ++ 2#3 ++ 0#8) []) = .ok (.regRead hp .cr1) ∧
    decode (.command (0x9#4 ++ BitVec.ofBool hp ++ 3#3 ++ 0#8) []) = .ok (.regRead hp .cr2) ∧
    decode (.command (0x9#4 ++ BitVec.ofBool hp ++ 4#3 ++ 0#8) []) = .ok (.regRead hp .brr) ∧
    ∀ r : BitVec 3, 5#3 ≤ r →
      decode (.command (0x9#4 ++ BitVec.ofBool hp ++ r ++ 0#8) []) = .error .reservedEncoding)

/-- R78: TEST_BIT. -/
def Obligations.TestBitAnswersOneBit : Prop :=
  (∀ reg k s, exec (.testBit false reg k) s = .fault .noInstance) ∧
  (∀ reg k s, s.life = .uninit → exec (.testBit true reg k) s = .fault .notInitialised) ∧
  (∀ (reg : Csr) (k : BitIndex) (s : State) (v : Byte), s.life = .ready →
    v = (match reg with | .dr => s.dr | .sr => s.sr | .cr1 => s.cr1 | .cr2 => s.cr2 | .brr => s.brr) →
    exec (.testBit true reg k) s
      = .next { s with
          responses := s.responses ++ [⟨if v.getLsbD k.toNat then 0x0001 else 0x0000, []⟩] }) ∧
  (∀ (hp : Bool) (reg : Csr) (k : BitIndex),
    decode (.command (0xA#4 ++ BitVec.ofBool hp ++ encodeCsr reg ++ 0#5 ++ k) [])
      = .ok (.testBit hp reg k))

/-- R79: SET_BIT writes the named bit of CR1 and nothing else. -/
def Obligations.SetBitSetsOneCr1Bit : Prop :=
  (∀ k s, exec (.setBit false k) s = .fault .noInstance) ∧
  (∀ k s, s.life = .uninit → exec (.setBit true k) s = .fault .notInitialised) ∧
  (∀ (k : BitIndex) (s : State), s.life = .ready →
    ∃ v : Byte, (∀ j < 8, v.getLsbD j = (decide (j = k.toNat) || s.cr1.getLsbD j)) ∧
      exec (.setBit true k) s
        = .next { s with cr1 := v, responses := s.responses ++ [⟨0x0000, []⟩] }) ∧
  (∀ (hp : Bool) (k : BitIndex),
    decode (.command (0xB#4 ++ BitVec.ofBool hp ++ 2#3 ++ 0#5 ++ k) []) = .ok (.setBit hp k)) ∧
  (∀ (hp : Bool) (r : BitVec 3) (k : BitIndex), r ≠ 2#3 →
    decode (.command (0xB#4 ++ BitVec.ofBool hp ++ r ++ 0#5 ++ k) []) = .error .reservedEncoding)

/-- R80: CLEAR_BIT writes the named bit of CR1 and nothing else. -/
def Obligations.ClearBitClearsOneCr1Bit : Prop :=
  (∀ k s, exec (.clearBit false k) s = .fault .noInstance) ∧
  (∀ k s, s.life = .uninit → exec (.clearBit true k) s = .fault .notInitialised) ∧
  (∀ (k : BitIndex) (s : State), s.life = .ready →
    ∃ v : Byte, (∀ j < 8, v.getLsbD j = (decide (j ≠ k.toNat) && s.cr1.getLsbD j)) ∧
      exec (.clearBit true k) s
        = .next { s with cr1 := v, responses := s.responses ++ [⟨0x0000, []⟩] }) ∧
  (∀ (hp : Bool) (k : BitIndex),
    decode (.command (0xC#4 ++ BitVec.ofBool hp ++ 2#3 ++ 0#5 ++ k) []) = .ok (.clearBit hp k)) ∧
  (∀ (hp : Bool) (r : BitVec 3) (k : BitIndex), r ≠ 2#3 →
    decode (.command (0xC#4 ++ BitVec.ofBool hp ++ r ++ 0#5 ++ k) []) = .error .reservedEncoding)

/-- R81: the complete list of writers of each register. TEARDOWN writes none of them, but leaves them
without a value (R86), so it is named with the writers. -/
def Obligations.OnlyListedWritersChangeEachRegister : Prop :=
  ∀ (i : Instr) (s t : State), exec i s = .next t →
    (t.dr ≠ s.dr → match i with
      | .init _ _ | .sendByte _ _ | .sendBuffer _ _ | .receiveByte _ | .receiveBuffer _ _
      | .teardown _ => True
      | _ => False) ∧
    (t.sr ≠ s.sr → match i with
      | .init _ _ | .sendByte _ _ | .sendBuffer _ _ | .receiveByte _ | .receiveBuffer _ _
      | .clearError _ | .txShift | .rxFrame _ _ _ | .teardown _ => True
      | _ => False) ∧
    (t.cr1 ≠ s.cr1 → match i with
      | .init _ _ | .setBit _ _ | .clearBit _ _ | .teardown _ => True
      | _ => False) ∧
    (t.cr2 ≠ s.cr2 → match i with | .init _ _ | .teardown _ => True | _ => False) ∧
    (t.brr ≠ s.brr → match i with | .init _ _ | .teardown _ => True | _ => False)

/-- R30: no CR1 bit has an effect on any other state. With another value in CR1, every instruction but a
read of CR1 ends the same way, and in the same state but for CR1. -/
def Obligations.Cr1BitsAffectNothingElse : Prop :=
  ∀ (i : Instr) (s : State) (v : Byte),
    (∀ hp, i ≠ .regRead hp .cr1) → (∀ hp k, i ≠ .testBit hp .cr1 k) →
    (∀ t, exec i s = .next t →
      ∃ t', exec i { s with cr1 := v } = .next t' ∧ { t' with cr1 := t.cr1 } = t) ∧
    (∀ f, exec i s = .fault f → exec i { s with cr1 := v } = .fault f)

/-- R50: the reading commands change no state, and repeating one gives the same response. -/
def Obligations.ReadingCommandsChangeNoState : Prop :=
  ∀ (i : Instr) (s t : State), exec i s = .next t →
    (match i with
      | .regRead _ _ | .testBit _ _ _ | .isTxEmpty _ | .isDataReady _ | .getError _ => True
      | _ => False) →
    ∃ r, t = { s with responses := s.responses ++ [r] } ∧
      exec i t = .next { s with responses := s.responses ++ [r, r] }

/-- R73: IS_TX_EMPTY ends as TEST_BIT SR, TXE does, and IS_DATA_READY as TEST_BIT SR, RXNE, though they
decode as distinct commands. -/
def Obligations.PollingCommandsEqualTheirTestBits : Prop :=
  ∀ (hp : Bool) (s : State),
    exec (.isTxEmpty hp) s = exec (.testBit hp .sr 0) s ∧
    exec (.isDataReady hp) s = exec (.testBit hp .sr 1) s ∧
    decode (encode (.isTxEmpty hp)) ≠ decode (encode (.testBit hp .sr 0)) ∧
    decode (encode (.isDataReady hp)) ≠ decode (encode (.testBit hp .sr 1))

/-! ### INIT and TEARDOWN -/

/-- R82 with R83, R84 and R85: INIT in either lifecycle state. After a failed draw the fields other than
`line_out` hold no value, and the statement gives them none. -/
def Obligations.InitBuildsTheResetState : Prop :=
  (∀ cfg s, exec (.init false cfg) s
    = .next { s with responses := s.responses ++ [⟨0x0100, []⟩] }) ∧
  (∀ hp s, exec (.init hp none) s
    = .next { s with responses := s.responses ++ [⟨0x0100, []⟩] }) ∧
  (∀ (c : UartConfig) (s : State), s.params.allocCanFail = false ∨ s.allocDraw = .ok →
    exec (.init true (some c)) s
      = .next { s with
          life := .ready
          cfg := c
          dr := 0x00
          sr := 0x01
          cr1 := 0x00
          cr2 := if c.stopBits = .two then 0x20 else 0x00
          brr := brrEncode s.params.brr c.baud
          txq := some []
          rxq := some []
          txInterruptEnabled := false
          rxInterruptEnabled := false
          errorInterruptEnabled := false
          txBusy := false
          rxBusy := false
          currentError := .noError
          responses := s.responses ++ [⟨0x0000, []⟩] }) ∧
  (∀ (c : UartConfig) (s : State), s.params.allocCanFail = true → s.allocDraw ≠ .ok →
    ∃ t, exec (.init true (some c)) s = .next t ∧
      t.life = .uninit ∧ t.txq = none ∧ t.rxq = none ∧ t.lineOut = s.lineOut ∧
      t.responses = s.responses ++ [⟨0x0600, []⟩] ∧ t.refusals = s.refusals ∧
      t.schedule = s.schedule ∧ t.params = s.params) ∧
  (∀ hp cfg, decode (.command (formatI hp cfg) []) = .ok (.init hp cfg))

/-- R86: TEARDOWN. The fields other than `line_out` hold no value afterwards, and the statement gives
them none. -/
def Obligations.TeardownReleasesTheInstance : Prop :=
  (∀ s, exec (.teardown false) s = .fault .noInstance) ∧
  (∀ s, s.life = .uninit → exec (.teardown true) s = .fault .notInitialised) ∧
  (∀ s : State, s.life = .ready →
    ∃ t, exec (.teardown true) s = .next t ∧
      t.life = .uninit ∧ t.txq = none ∧ t.rxq = none ∧ t.lineOut = s.lineOut ∧
      t.responses = s.responses ++ [⟨0x0000, []⟩] ∧ t.refusals = s.refusals ∧
      t.schedule = s.schedule ∧ t.params = s.params ∧ exec (.teardown true) t = .fault .notInitialised) ∧
  (∀ hp : Bool, decode (.command (0xD#4 ++ BitVec.ofBool hp ++ 0#11) []) = .ok (.teardown hp))

/-- R17: the block turns Ready only by an INIT whose FIFOs are acquired, and Uninit only by a TEARDOWN or
an INIT whose FIFOs are not. -/
def Obligations.OnlyInitAndTeardownChangeLife : Prop :=
  ∀ (i : Instr) (s t : State), exec i s = .next t →
    (s.life = .uninit → t.life = .ready →
      ∃ c, i = .init true (some c) ∧ (s.params.allocCanFail = false ∨ s.allocDraw = .ok)) ∧
    (s.life = .ready → t.life = .uninit →
      i = .teardown true ∨
      ∃ c, i = .init true (some c) ∧ s.params.allocCanFail = true ∧ s.allocDraw ≠ .ok)

/-- R87: between two INITs no command or event writes `cfg`, CR2 or BRR. -/
def Obligations.ConfigurationIsImmutable : Prop :=
  ∀ (i : Instr) (s t : State), exec i s = .next t →
    (∀ hp cfg, i ≠ .init hp cfg) → (∀ hp, i ≠ .teardown hp) →
      t.cfg = s.cfg ∧ t.cr2 = s.cr2 ∧ t.brr = s.brr

/-- R33, R7: under every admitted `BRR_ENCODE` the baud rate can be recovered from BRR, and the spec's
default, 115200 over the baud rate, is an admitted one. -/
def Obligations.BrrDistinguishesBaudRates : Prop :=
  (∀ p : Params, p.wf → Function.Injective (brrEncode p.brr)) ∧
  Params.reference.wf ∧
  brrEncode BrrTable.default .b9600 = BitVec.ofNat 8 (115200 / 9600) ∧
  brrEncode BrrTable.default .b19200 = BitVec.ofNat 8 (115200 / 19200) ∧
  brrEncode BrrTable.default .b38400 = BitVec.ofNat 8 (115200 / 38400) ∧
  brrEncode BrrTable.default .b57600 = BitVec.ofNat 8 (115200 / 57600) ∧
  brrEncode BrrTable.default .b115200 = BitVec.ofNat 8 (115200 / 115200)

/-- R37, R38: no step but INIT writes `rx_busy` or an `*_interrupt_enabled` flag (TEARDOWN leaves them
without a value), and none reads one: with other values in them every instruction ends the same way, and
in the same state but for them. -/
def Obligations.InertFlagsAreNeitherReadNorWritten : Prop :=
  (∀ (i : Instr) (s t : State), exec i s = .next t →
    (∀ hp cfg, i ≠ .init hp cfg) → (∀ hp, i ≠ .teardown hp) →
      t.rxBusy = s.rxBusy ∧ t.txInterruptEnabled = s.txInterruptEnabled ∧
      t.rxInterruptEnabled = s.rxInterruptEnabled ∧
      t.errorInterruptEnabled = s.errorInterruptEnabled) ∧
  (∀ (i : Instr) (s u : State) (a b c d : Bool),
    u = { s with
      rxBusy := a, txInterruptEnabled := b, rxInterruptEnabled := c, errorInterruptEnabled := d } →
    (∀ t, exec i s = .next t →
      ∃ t', exec i u = .next t' ∧
        { t' with
          rxBusy := t.rxBusy, txInterruptEnabled := t.txInterruptEnabled
          rxInterruptEnabled := t.rxInterruptEnabled
          errorInterruptEnabled := t.errorInterruptEnabled } = t) ∧
    (∀ f, exec i s = .fault f → exec i u = .fault f))

/-! ### The transmit path -/

/-- R89: SEND_BYTE. -/
def Obligations.SendByteQueuesOneByte : Prop :=
  (∀ b s, exec (.sendByte false b) s
    = .next { s with responses := s.responses ++ [⟨0x0100, []⟩] }) ∧
  (∀ b s, s.life = .uninit → exec (.sendByte true b) s = .fault .notInitialised) ∧
  (∀ (b : Byte) (s : State) (q : List Byte), s.life = .ready → s.txq = some q →
    q.length = s.params.cap →
    exec (.sendByte true b) s = .next { s with responses := s.responses ++ [⟨0x0500, []⟩] }) ∧
  (∀ (b : Byte) (s : State) (q : List Byte), s.life = .ready → s.txq = some q →
    q.length ≠ s.params.cap →
    exec (.sendByte true b) s
      = .next { s with
          txq := some (q ++ [b]), dr := b, txBusy := true, sr := s.sr &&& 0xFA
          responses := s.responses ++ [⟨0x0000, []⟩] }) ∧
  (∀ (hp : Bool) (b : Byte),
    decode (.command (0x1#4 ++ BitVec.ofBool hp ++ 0#3 ++ b) []) = .ok (.sendByte hp b))

/-- R90: SEND_BUFFER accepts the first `min(|p|, CAP - |txq|)` bytes. -/
def Obligations.SendBufferQueuesWhatFits : Prop :=
  (∀ p s, exec (.sendBuffer false p) s = .fault .noInstance) ∧
  (∀ p s, s.life = .uninit → exec (.sendBuffer true p) s = .fault .notInitialised) ∧
  (∀ (p : List Byte) (s : State) (q : List Byte) (n : Nat), s.life = .ready → s.txq = some q →
    q.length ≤ s.params.cap → n = min p.length (s.params.cap - q.length) →
    (n = 0 → exec (.sendBuffer true p) s
      = .next { s with responses := s.responses ++ [⟨0x0000, []⟩] }) ∧
    (0 < n → exec (.sendBuffer true p) s
      = .next { s with
          txq := some (q ++ p.take n), dr := p.getD (n - 1) 0, txBusy := true, sr := s.sr &&& 0xFA
          responses := s.responses ++ [⟨0x00#8 ++ BitVec.ofNat 8 n, []⟩] })) ∧
  (∀ (hp : Bool) (p : List Byte), p.length ≤ 255 →
    decode (.command (0x2#4 ++ BitVec.ofBool hp ++ 0#3 ++ BitVec.ofNat 8 p.length) p)
      = .ok (.sendBuffer hp p))

/-- R91: IS_TX_EMPTY. -/
def Obligations.IsTxEmptyAnswersTxe : Prop :=
  (∀ s, exec (.isTxEmpty false) s = .fault .noInstance) ∧
  (∀ s, s.life = .uninit → exec (.isTxEmpty true) s = .fault .notInitialised) ∧
  (∀ s : State, s.life = .ready →
    exec (.isTxEmpty true) s
      = .next { s with responses := s.responses ++ [⟨0x00#8 ++ (s.sr &&& 0x01), []⟩] }) ∧
  (∀ (s : State) (q : List Byte), s.Inv → s.life = .ready → s.txq = some q →
    exec (.isTxEmpty true) s
      = .next { s with
          responses := s.responses ++ [⟨if q = [] then 0x0001 else 0x0000, []⟩] }) ∧
  (∀ hp : Bool, decode (.command (0x3#4 ++ BitVec.ofBool hp ++ 0#11) []) = .ok (.isTxEmpty hp))

/-- R92, R101: TX_SHIFT where it is enabled, without and with LOOPBACK. A looped-back byte is received in
the same step and carries no error; into a full RX FIFO it overruns. -/
def Obligations.TxShiftPutsOldestByteOnLine : Prop :=
  ∀ (s : State) (b : Byte) (q : List Byte) (v : Byte), s.life = .ready → s.txq = some (b :: q) →
    v = b &&& (if s.cfg.dataBits = .seven then 0x7F else 0xFF) →
    (s.params.loopback = false →
      (q ≠ [] → exec .txShift s
        = .next { s with txq := some q, lineOut := s.lineOut ++ [v] }) ∧
      (q = [] → exec .txShift s
        = .next { s with
            txq := some [], lineOut := s.lineOut ++ [v], txBusy := false, sr := s.sr ||| 0x05 })) ∧
    (∀ r, s.params.loopback = true → s.rxq = some r → r.length ≠ s.params.cap →
      (q ≠ [] → exec .txShift s
        = .next { s with
            txq := some q, lineOut := s.lineOut ++ [v], rxq := some (r ++ [v])
            sr := s.sr ||| 0x02 }) ∧
      (q = [] → exec .txShift s
        = .next { s with
            txq := some [], lineOut := s.lineOut ++ [v], rxq := some (r ++ [v])
            txBusy := false, sr := s.sr ||| 0x07 })) ∧
    (∀ r, s.params.loopback = true → s.rxq = some r → r.length = s.params.cap →
      (q ≠ [] → exec .txShift s
        = .next { s with
            txq := some q, lineOut := s.lineOut ++ [v]
            sr := s.sr ||| 0x20, currentError := .overrunError }) ∧
      (q = [] → exec .txShift s
        = .next { s with
            txq := some [], lineOut := s.lineOut ++ [v], txBusy := false
            sr := s.sr ||| 0x25, currentError := .overrunError }))

/-- R92, R100, R17: a line event that is not enabled leaves no trace. For TX_SHIFT, which the spec says
cannot occur there, this is the model's choice (log 9). -/
def Obligations.DisabledLineEventsLeaveNoTrace : Prop :=
  (∀ (s : State) (fe pe : Bool) (v : Byte), s.life = .uninit → exec (.rxFrame fe pe v) s = .next s) ∧
  (∀ s : State, s.life = .uninit ∨ s.txq = some [] → exec .txShift s = .next s)

/-- R40: TX_SHIFT appends one byte to `line_out` where it is enabled, and nothing else changes it. -/
def Obligations.OnlyTxShiftExtendsLineOut : Prop :=
  ∀ (i : Instr) (s t : State), exec i s = .next t →
    (i ≠ .txShift → t.lineOut = s.lineOut) ∧
    (i = .txShift → s.life = .ready → ∀ b q, s.txq = some (b :: q) →
      ∃ v, t.lineOut = s.lineOut ++ [v])

/-- R93, R36: the transmitter turns Busy only by a send that queues a byte, and Idle only by the TX_SHIFT that
takes the last byte, which sets TXE and TC. INIT and TEARDOWN are left out. -/
def Obligations.TransmitterTurnsBusyAndIdleAsStated : Prop :=
  ∀ (i : Instr) (s t : State), exec i s = .next t →
    (∀ hp cfg, i ≠ .init hp cfg) → (∀ hp, i ≠ .teardown hp) →
    (s.txBusy = false → t.txBusy = true →
      (∃ b, i = .sendByte true b) ∨ ∃ p, i = .sendBuffer true p ∧ p ≠ []) ∧
    (s.txBusy = true → t.txBusy = false →
      i = .txShift ∧ (∃ b, s.txq = some [b]) ∧ t.sr.getLsbD 0 = true ∧ t.sr.getLsbD 2 = true)

/-- R95, one step: what has left the block, followed by what is still queued, grows by exactly the bytes
the step accepts, masked, in order. INIT and TEARDOWN, which discard queued bytes, are left out. -/
def Obligations.TransmittedBytesKeepTheirOrder : Prop :=
  ∀ (i : Instr) (s t : State) (q : List Byte) (m : Byte),
    s.txq = some q → m = (if s.cfg.dataBits = .seven then 0x7F else 0xFF) →
    (∀ hp cfg, i ≠ .init hp cfg) → (∀ hp, i ≠ .teardown hp) → exec i s = .next t →
    ∃ q' accepted, t.txq = some q' ∧
      t.lineOut ++ q'.map (· &&& m)
        = s.lineOut ++ q.map (· &&& m) ++ accepted.map (· &&& m) ∧
      (match i with
        | .sendByte _ b =>
          t.responses = s.responses ++ [⟨0x0000, []⟩] ∧ accepted = [b] ∨
          t.responses ≠ s.responses ++ [⟨0x0000, []⟩] ∧ accepted = []
        | .sendBuffer _ p =>
          accepted <+: p ∧
          t.responses = s.responses ++ [⟨0x00#8 ++ BitVec.ofNat 8 accepted.length, []⟩]
        | _ => accepted = [])

/-- R95, R101: the FIFO law end to end. With LOOPBACK, from a Ready block with both FIFOs empty, `N <= CAP`
SEND_BYTEs, then `N` TX_SHIFTs, then `N` RECEIVE_BYTEs run to the end of the schedule; the bytes, masked,
are on the line and are the responses, in the same order.
The schedule and the response trace are the model's own (log 2, log 8). -/
def Obligations.LoopbackReturnsSentBytesInOrder : Prop :=
  ∀ (s : State) (bs : List Byte) (a : Alloc) (m : Byte),
    s.life = .ready → s.txq = some [] → s.rxq = some [] → s.params.loopback = true →
    bs.length ≤ s.params.cap → m = (if s.cfg.dataBits = .seven then 0x7F else 0xFF) →
    s.schedule =
      bs.map (fun b => ⟨.command (0x18#8 ++ b) [], a⟩) ++
      List.replicate bs.length ⟨.shift, a⟩ ++
      List.replicate bs.length ⟨.command 0x4800 [], a⟩ →
    ∃ t : State, Host.Core.run Sys2Proof.core (3 * bs.length) s = .next t ∧ endsCleanly s t ∧
      t.txq = some [] ∧ t.rxq = some [] ∧
      t.lineOut = s.lineOut ++ bs.map (· &&& m) ∧
      t.responses = s.responses ++ List.replicate bs.length ⟨0x0000, []⟩ ++
        bs.map (fun b => ⟨0x00#8 ++ (b &&& m), []⟩)

/-! ### The receive path -/

/-- R96: RECEIVE_BYTE. -/
def Obligations.ReceiveByteTakesOldestByte : Prop :=
  (∀ s, exec (.receiveByte false) s
    = .next { s with responses := s.responses ++ [⟨0x0100, []⟩] }) ∧
  (∀ s, s.life = .uninit → exec (.receiveByte true) s = .fault .notInitialised) ∧
  (∀ s : State, s.life = .ready → s.rxq = some [] →
    exec (.receiveByte true) s = .next { s with responses := s.responses ++ [⟨0x0700, []⟩] }) ∧
  (∀ (s : State) (b : Byte) (q : List Byte), s.life = .ready → s.rxq = some (b :: q) →
    exec (.receiveByte true) s
      = .next { s with
          rxq := some q, dr := b, sr := if q = [] then s.sr &&& 0xFD else s.sr ||| 0x02
          responses := s.responses ++ [⟨0x00#8 ++ b, []⟩] }) ∧
  (∀ hp : Bool, decode (.command (0x4#4 ++ BitVec.ofBool hp ++ 0#11) []) = .ok (.receiveByte hp))

/-- R97: RECEIVE_BUFFER takes the oldest `min(m, |rxq|)` bytes. -/
def Obligations.ReceiveBufferTakesOldestBytes : Prop :=
  (∀ m s, exec (.receiveBuffer false m) s = .fault .noInstance) ∧
  (∀ m s, s.life = .uninit → exec (.receiveBuffer true m) s = .fault .notInitialised) ∧
  (∀ (m : BitVec 8) (s : State) (q : List Byte) (n : Nat), s.life = .ready → s.rxq = some q →
    n = min m.toNat q.length →
    (n = 0 → exec (.receiveBuffer true m) s
      = .next { s with responses := s.responses ++ [⟨0x0000, []⟩] }) ∧
    (0 < n → exec (.receiveBuffer true m) s
      = .next { s with
          rxq := some (q.drop n), dr := q.getD (n - 1) 0
          sr := if q.length = n then s.sr &&& 0xFD else s.sr ||| 0x02
          responses := s.responses ++ [⟨0x00#8 ++ BitVec.ofNat 8 n, q.take n⟩] })) ∧
  (∀ (hp : Bool) (m : BitVec 8),
    decode (.command (0x5#4 ++ BitVec.ofBool hp ++ 0#3 ++ m) []) = .ok (.receiveBuffer hp m))

/-- R98: IS_DATA_READY. -/
def Obligations.IsDataReadyAnswersRxne : Prop :=
  (∀ s, exec (.isDataReady false) s = .fault .noInstance) ∧
  (∀ s, s.life = .uninit → exec (.isDataReady true) s = .fault .notInitialised) ∧
  (∀ s : State, s.life = .ready →
    exec (.isDataReady true) s
      = .next { s with
          responses := s.responses ++ [⟨if s.sr.getLsbD 1 then 0x0001 else 0x0000, []⟩] }) ∧
  (∀ (s : State) (q : List Byte), s.Inv → s.life = .ready → s.rxq = some q →
    exec (.isDataReady true) s
      = .next { s with
          responses := s.responses ++ [⟨if q = [] then 0x0000 else 0x0001, []⟩] }) ∧
  (∀ hp : Bool, decode (.command (0x6#4 ++ BitVec.ofBool hp ++ 0#11) []) = .ok (.isDataReady hp))

/-- R100 with R99 and R107: RX_FRAME. A frame that finds the RX FIFO full only overruns; any other is
stored, masked, and its faults are latched, framing over parity. -/
def Obligations.RxFrameStoresAndLatches : Prop :=
  (∀ (fe pe : Bool) (v : Byte) (s : State) (q : List Byte), s.life = .ready → s.rxq = some q →
    (q.length = s.params.cap →
      exec (.rxFrame fe pe v) s
        = .next { s with sr := s.sr ||| 0x20, currentError := .overrunError }) ∧
    (q.length ≠ s.params.cap → ∀ (m : Byte) (parity : Bool),
      m = (if s.cfg.dataBits = .seven then 0x7F else 0xFF) →
      parity = (pe && decide (s.cfg.parity ≠ .none)) →
      exec (.rxFrame fe pe v) s
        = .next { s with
            rxq := some (q ++ [v &&& m])
            sr := s.sr ||| 0x02 ||| (if parity then 0x08 else 0x00) ||| (if fe then 0x10 else 0x00)
            currentError :=
              if fe then .framingError else if parity then .parityError else s.currentError })) ∧
  (∀ (fe pe : Bool) (v : Byte) (s : State), s.life = .uninit → exec (.rxFrame fe pe v) s = .next s) ∧
  (∀ f : LineWord, decode (.frame f)
    = .ok (.rxFrame (f.getLsbD 9) (f.getLsbD 8) (f.extractLsb' 0 8)))

/-- R102, R27: the RX FIFO fills only from the line, and empties only by RECEIVE_BYTE and RECEIVE_BUFFER; ORE
rises only where a frame finds it full. INIT and TEARDOWN are left out. -/
def Obligations.ReceiverFillsAndEmptiesAsStated : Prop :=
  ∀ (i : Instr) (s t : State) (q : List Byte), exec i s = .next t → s.rxq = some q →
    (∀ hp cfg, i ≠ .init hp cfg) → (∀ hp, i ≠ .teardown hp) →
    ∃ q', t.rxq = some q' ∧
      (q = [] → q' ≠ [] →
        (∃ fe pe v, i = .rxFrame fe pe v) ∨ (i = .txShift ∧ s.params.loopback = true)) ∧
      (q ≠ [] → q' = [] → i = .receiveByte true ∨ ∃ m, i = .receiveBuffer true m) ∧
      (s.sr.getLsbD 5 = false → t.sr.getLsbD 5 = true → q.length = s.params.cap)

/-! ### The error latch and error reporting -/

/-- R104: GET_ERROR. -/
def Obligations.GetErrorAnswersLatchedCode : Prop :=
  (∀ s, exec (.getError false) s = .fault .noInstance) ∧
  (∀ s, s.life = .uninit → exec (.getError true) s = .fault .notInitialised) ∧
  (∀ (s : State) (w : ResponseWord), s.life = .ready →
    w = (match s.currentError with
      | .noError => 0x0000
      | .framingError => 0x0002
      | .parityError => 0x0003
      | .overrunError => 0x0004) →
    exec (.getError true) s = .next { s with responses := s.responses ++ [⟨w, []⟩] }) ∧
  (∀ hp : Bool, decode (.command (0x7#4 ++ BitVec.ofBool hp ++ 0#11) []) = .ok (.getError hp))

/-- R105: CLEAR_ERROR, and it is idempotent. -/
def Obligations.ClearErrorClearsLatchAndErrorBits : Prop :=
  (∀ s, exec (.clearError false) s = .fault .noInstance) ∧
  (∀ s, s.life = .uninit → exec (.clearError true) s = .fault .notInitialised) ∧
  (∀ s : State, s.life = .ready →
    exec (.clearError true) s
      = .next { s with
          currentError := .noError, sr := s.sr &&& 0xC7
          responses := s.responses ++ [⟨0x0000, []⟩] }) ∧
  (∀ s t : State, exec (.clearError true) s = .next t →
    exec (.clearError true) t = .next { t with responses := t.responses ++ [⟨0x0000, []⟩] }) ∧
  (∀ hp : Bool, decode (.command (0x8#4 ++ BitVec.ofBool hp ++ 0#11) []) = .ok (.clearError hp))

/-- R113: only the line agents latch an error. A host command leaves `current_error` and the SR error bits
as they are or clears them, and a TX_SHIFT without LOOPBACK leaves them. After TEARDOWN, and after an INIT
whose draw fails, these fields hold no value (R44): for those two forms the statement rests on the values the
model keeps there, NO_ERROR and 0x00 (log 1). -/
def Obligations.HostCommandsLatchNoError : Prop :=
  ∀ (i : Instr) (s t : State), exec i s = .next t →
    (isCommand i = true →
      (t.currentError = s.currentError ∨ t.currentError = .noError) ∧
      (t.sr &&& 0x38 = s.sr &&& 0x38 ∨ t.sr &&& 0x38 = 0)) ∧
    (i = .txShift → s.params.loopback = false →
      t.currentError = s.currentError ∧ t.sr &&& 0x38 = s.sr &&& 0x38)

/-- R25, R26, R27, R119: PE, FE and ORE are sticky, and a latched error stays latched, until CLEAR_ERROR or
INIT. TEARDOWN, which leaves them without a value, is left out. -/
def Obligations.LatchedErrorsStayUntilCleared : Prop :=
  ∀ (i : Instr) (s t : State), exec i s = .next t →
    (∀ hp, i ≠ .clearError hp) → (∀ hp cfg, i ≠ .init hp cfg) → (∀ hp, i ≠ .teardown hp) →
    (t.sr ||| ~~~s.sr) &&& 0x38 = 0x38 ∧ (s.currentError ≠ .noError → t.currentError ≠ .noError)

/-- R108: being in Error changes nothing else. With another `current_error` and other SR error bits, every
instruction that does not read them ends in the same state but for them. -/
def Obligations.ErrorStateChangesNothingElse : Prop :=
  ∀ (i : Instr) (s t : State) (e : LatchedError) (v : Byte),
    v &&& 0xC7 = s.sr &&& 0xC7 →
    (∀ hp, i ≠ .getError hp) → (∀ hp, i ≠ .regRead hp .sr) → (∀ hp k, i ≠ .testBit hp .sr k) →
    exec i s = .next t →
    ∃ t', exec i { s with currentError := e, sr := v } = .next t' ∧
      t'.sr &&& 0xC7 = t.sr &&& 0xC7 ∧
      { t' with currentError := t.currentError, sr := t.sr } = t

/-- R112: an `Err` response changes no state, except BUFFER_CREATE_FAILURE (code 0x06). -/
def Obligations.ErrorResponsesChangeNoState : Prop :=
  ∀ (i : Instr) (s t : State) (r : Response), exec i s = .next t →
    t.responses = s.responses ++ [r] →
    r.word.extractLsb' 8 8 ≠ 0x00 → r.word.extractLsb' 8 8 ≠ 0x06 →
      t = { s with responses := s.responses ++ [r] } ∧ r.word.extractLsb' 0 8 = 0x00 ∧ r.payload = []

/-- R59, R65: the block answers every command that has a meaning with one response in the command's own
step, unless it faults; a line event and a refused command have none. The response trace is the model's own
(log 8). -/
def Obligations.EveryCommandGetsOneResponse : Prop :=
  ∀ (i : Instr) (s t : State), exec i s = .next t →
    (isCommand i = true → (∀ bits, i ≠ .reserved bits) → ∃ r, t.responses = s.responses ++ [r]) ∧
    (isCommand i = false ∨ (∃ bits, i = .reserved bits) → t.responses = s.responses)

/-- R69 (a), R117: the meaning of the table's `reserved` row (log 5, log 6). The refusal changes nothing but
the refusal mark, whatever the state and the word's other bits. -/
def Obligations.ReservedOpcodesAreRefused : Prop :=
  (∀ (b : BitVec 13) (s : State),
    exec (.reserved b) s = .next { s with refusals := s.refusals ++ [.reservedEncoding] }) ∧
  (∀ b : BitVec 12, decode (.command (0xE#4 ++ b) []) = .ok (.reserved (0#1 ++ b)) ∧
    decode (.command (0xF#4 ++ b) []) = .ok (.reserved (1#1 ++ b)))

/-! ### The end of a run -/

/-- R137: a run ends cleanly in the state after the response to the host's last command, whatever line events
are still to come; every command has then had its response, and none was refused. With no command in the
schedule that is the start state (log 14). The schedule, the response trace and the form of the refusal mark
are the model's own (log 2, log 8, log 5). -/
def Obligations.EndStateFollowsTheLastResponse : Prop :=
  (∀ (s t : State) (before lines : List Event) (w : CommandWord) (p : List Byte) (a : Alloc),
    s.schedule = before ++ ⟨.command w p, a⟩ :: lines →
    (∀ e ∈ lines, e.input = .shift ∨ ∃ f, e.input = .frame f) →
    (endsCleanly s t ↔
      Host.Core.run Sys2Proof.core (before.length + 1) s = .next t ∧ t.refusals = s.refusals) ∧
    (endsCleanly s t → t.schedule = lines ∧
      ∃ given, t.responses = s.responses ++ given ∧
        given.length = before.countP isHostCommand + 1)) ∧
  (∀ s t : State, (∀ e ∈ s.schedule, e.input = .shift ∨ ∃ f, e.input = .frame f) →
    (endsCleanly s t ↔ t = s))
end

