-- ==== Sys2Proof/Laws/State.lean ====
section
/-! SUPPORT. One lemma per field per named update of State, each true by unfolding the update. -/

namespace Sys2Proof.Machine

open Sys2Proof

section respond
variable (s : State) (r : Response)

@[simp] theorem State.respond_life : (s.respond r).life = s.life := rfl
@[simp] theorem State.respond_cfg : (s.respond r).cfg = s.cfg := rfl
@[simp] theorem State.respond_dr : (s.respond r).dr = s.dr := rfl
@[simp] theorem State.respond_sr : (s.respond r).sr = s.sr := rfl
@[simp] theorem State.respond_cr1 : (s.respond r).cr1 = s.cr1 := rfl
@[simp] theorem State.respond_cr2 : (s.respond r).cr2 = s.cr2 := rfl
@[simp] theorem State.respond_brr : (s.respond r).brr = s.brr := rfl
@[simp] theorem State.respond_txq : (s.respond r).txq = s.txq := rfl
@[simp] theorem State.respond_rxq : (s.respond r).rxq = s.rxq := rfl
@[simp] theorem State.respond_txInterruptEnabled : (s.respond r).txInterruptEnabled = s.txInterruptEnabled := rfl
@[simp] theorem State.respond_rxInterruptEnabled : (s.respond r).rxInterruptEnabled = s.rxInterruptEnabled := rfl
@[simp] theorem State.respond_errorInterruptEnabled : (s.respond r).errorInterruptEnabled = s.errorInterruptEnabled := rfl
@[simp] theorem State.respond_txBusy : (s.respond r).txBusy = s.txBusy := rfl
@[simp] theorem State.respond_rxBusy : (s.respond r).rxBusy = s.rxBusy := rfl
@[simp] theorem State.respond_currentError : (s.respond r).currentError = s.currentError := rfl
@[simp] theorem State.respond_lineOut : (s.respond r).lineOut = s.lineOut := rfl
@[simp] theorem State.respond_refusals : (s.respond r).refusals = s.refusals := rfl
@[simp] theorem State.respond_responses : (s.respond r).responses = s.responses ++ [r] := rfl
@[simp] theorem State.respond_schedule : (s.respond r).schedule = s.schedule := rfl
@[simp] theorem State.respond_allocDraw : (s.respond r).allocDraw = s.allocDraw := rfl
@[simp] theorem State.respond_params : (s.respond r).params = s.params := rfl

end respond

section markRefused
variable (s : State) (r : DecodeRefusal)

@[simp] theorem State.markRefused_life : (s.markRefused r).life = s.life := rfl
@[simp] theorem State.markRefused_cfg : (s.markRefused r).cfg = s.cfg := rfl
@[simp] theorem State.markRefused_dr : (s.markRefused r).dr = s.dr := rfl
@[simp] theorem State.markRefused_sr : (s.markRefused r).sr = s.sr := rfl
@[simp] theorem State.markRefused_cr1 : (s.markRefused r).cr1 = s.cr1 := rfl
@[simp] theorem State.markRefused_cr2 : (s.markRefused r).cr2 = s.cr2 := rfl
@[simp] theorem State.markRefused_brr : (s.markRefused r).brr = s.brr := rfl
@[simp] theorem State.markRefused_txq : (s.markRefused r).txq = s.txq := rfl
@[simp] theorem State.markRefused_rxq : (s.markRefused r).rxq = s.rxq := rfl
@[simp] theorem State.markRefused_txInterruptEnabled : (s.markRefused r).txInterruptEnabled = s.txInterruptEnabled := rfl
@[simp] theorem State.markRefused_rxInterruptEnabled : (s.markRefused r).rxInterruptEnabled = s.rxInterruptEnabled := rfl
@[simp] theorem State.markRefused_errorInterruptEnabled : (s.markRefused r).errorInterruptEnabled = s.errorInterruptEnabled := rfl
@[simp] theorem State.markRefused_txBusy : (s.markRefused r).txBusy = s.txBusy := rfl
@[simp] theorem State.markRefused_rxBusy : (s.markRefused r).rxBusy = s.rxBusy := rfl
@[simp] theorem State.markRefused_currentError : (s.markRefused r).currentError = s.currentError := rfl
@[simp] theorem State.markRefused_lineOut : (s.markRefused r).lineOut = s.lineOut := rfl
@[simp] theorem State.markRefused_refusals : (s.markRefused r).refusals = s.refusals ++ [r] := rfl
@[simp] theorem State.markRefused_responses : (s.markRefused r).responses = s.responses := rfl
@[simp] theorem State.markRefused_schedule : (s.markRefused r).schedule = s.schedule := rfl
@[simp] theorem State.markRefused_allocDraw : (s.markRefused r).allocDraw = s.allocDraw := rfl
@[simp] theorem State.markRefused_params : (s.markRefused r).params = s.params := rfl

end markRefused

section setFlag
variable (s : State) (k : BitIndex)

@[simp] theorem State.setFlag_life : (s.setFlag k).life = s.life := rfl
@[simp] theorem State.setFlag_cfg : (s.setFlag k).cfg = s.cfg := rfl
@[simp] theorem State.setFlag_dr : (s.setFlag k).dr = s.dr := rfl
@[simp] theorem State.setFlag_sr : (s.setFlag k).sr = withBitSet s.sr k := rfl
@[simp] theorem State.setFlag_cr1 : (s.setFlag k).cr1 = s.cr1 := rfl
@[simp] theorem State.setFlag_cr2 : (s.setFlag k).cr2 = s.cr2 := rfl
@[simp] theorem State.setFlag_brr : (s.setFlag k).brr = s.brr := rfl
@[simp] theorem State.setFlag_txq : (s.setFlag k).txq = s.txq := rfl
@[simp] theorem State.setFlag_rxq : (s.setFlag k).rxq = s.rxq := rfl
@[simp] theorem State.setFlag_txInterruptEnabled : (s.setFlag k).txInterruptEnabled = s.txInterruptEnabled := rfl
@[simp] theorem State.setFlag_rxInterruptEnabled : (s.setFlag k).rxInterruptEnabled = s.rxInterruptEnabled := rfl
@[simp] theorem State.setFlag_errorInterruptEnabled : (s.setFlag k).errorInterruptEnabled = s.errorInterruptEnabled := rfl
@[simp] theorem State.setFlag_txBusy : (s.setFlag k).txBusy = s.txBusy := rfl
@[simp] theorem State.setFlag_rxBusy : (s.setFlag k).rxBusy = s.rxBusy := rfl
@[simp] theorem State.setFlag_currentError : (s.setFlag k).currentError = s.currentError := rfl
@[simp] theorem State.setFlag_lineOut : (s.setFlag k).lineOut = s.lineOut := rfl
@[simp] theorem State.setFlag_refusals : (s.setFlag k).refusals = s.refusals := rfl
@[simp] theorem State.setFlag_responses : (s.setFlag k).responses = s.responses := rfl
@[simp] theorem State.setFlag_schedule : (s.setFlag k).schedule = s.schedule := rfl
@[simp] theorem State.setFlag_allocDraw : (s.setFlag k).allocDraw = s.allocDraw := rfl
@[simp] theorem State.setFlag_params : (s.setFlag k).params = s.params := rfl

end setFlag

section clearFlag
variable (s : State) (k : BitIndex)

@[simp] theorem State.clearFlag_life : (s.clearFlag k).life = s.life := rfl
@[simp] theorem State.clearFlag_cfg : (s.clearFlag k).cfg = s.cfg := rfl
@[simp] theorem State.clearFlag_dr : (s.clearFlag k).dr = s.dr := rfl
@[simp] theorem State.clearFlag_sr : (s.clearFlag k).sr = withBitClear s.sr k := rfl
@[simp] theorem State.clearFlag_cr1 : (s.clearFlag k).cr1 = s.cr1 := rfl
@[simp] theorem State.clearFlag_cr2 : (s.clearFlag k).cr2 = s.cr2 := rfl
@[simp] theorem State.clearFlag_brr : (s.clearFlag k).brr = s.brr := rfl
@[simp] theorem State.clearFlag_txq : (s.clearFlag k).txq = s.txq := rfl
@[simp] theorem State.clearFlag_rxq : (s.clearFlag k).rxq = s.rxq := rfl
@[simp] theorem State.clearFlag_txInterruptEnabled : (s.clearFlag k).txInterruptEnabled = s.txInterruptEnabled := rfl
@[simp] theorem State.clearFlag_rxInterruptEnabled : (s.clearFlag k).rxInterruptEnabled = s.rxInterruptEnabled := rfl
@[simp] theorem State.clearFlag_errorInterruptEnabled : (s.clearFlag k).errorInterruptEnabled = s.errorInterruptEnabled := rfl
@[simp] theorem State.clearFlag_txBusy : (s.clearFlag k).txBusy = s.txBusy := rfl
@[simp] theorem State.clearFlag_rxBusy : (s.clearFlag k).rxBusy = s.rxBusy := rfl
@[simp] theorem State.clearFlag_currentError : (s.clearFlag k).currentError = s.currentError := rfl
@[simp] theorem State.clearFlag_lineOut : (s.clearFlag k).lineOut = s.lineOut := rfl
@[simp] theorem State.clearFlag_refusals : (s.clearFlag k).refusals = s.refusals := rfl
@[simp] theorem State.clearFlag_responses : (s.clearFlag k).responses = s.responses := rfl
@[simp] theorem State.clearFlag_schedule : (s.clearFlag k).schedule = s.schedule := rfl
@[simp] theorem State.clearFlag_allocDraw : (s.clearFlag k).allocDraw = s.allocDraw := rfl
@[simp] theorem State.clearFlag_params : (s.clearFlag k).params = s.params := rfl

end clearFlag

section taking
variable (s : State) (e : Event) (rest : List Event)

@[simp] theorem State.taking_life : (s.taking e rest).life = s.life := rfl
@[simp] theorem State.taking_cfg : (s.taking e rest).cfg = s.cfg := rfl
@[simp] theorem State.taking_dr : (s.taking e rest).dr = s.dr := rfl
@[simp] theorem State.taking_sr : (s.taking e rest).sr = s.sr := rfl
@[simp] theorem State.taking_cr1 : (s.taking e rest).cr1 = s.cr1 := rfl
@[simp] theorem State.taking_cr2 : (s.taking e rest).cr2 = s.cr2 := rfl
@[simp] theorem State.taking_brr : (s.taking e rest).brr = s.brr := rfl
@[simp] theorem State.taking_txq : (s.taking e rest).txq = s.txq := rfl
@[simp] theorem State.taking_rxq : (s.taking e rest).rxq = s.rxq := rfl
@[simp] theorem State.taking_txInterruptEnabled : (s.taking e rest).txInterruptEnabled = s.txInterruptEnabled := rfl
@[simp] theorem State.taking_rxInterruptEnabled : (s.taking e rest).rxInterruptEnabled = s.rxInterruptEnabled := rfl
@[simp] theorem State.taking_errorInterruptEnabled : (s.taking e rest).errorInterruptEnabled = s.errorInterruptEnabled := rfl
@[simp] theorem State.taking_txBusy : (s.taking e rest).txBusy = s.txBusy := rfl
@[simp] theorem State.taking_rxBusy : (s.taking e rest).rxBusy = s.rxBusy := rfl
@[simp] theorem State.taking_currentError : (s.taking e rest).currentError = s.currentError := rfl
@[simp] theorem State.taking_lineOut : (s.taking e rest).lineOut = s.lineOut := rfl
@[simp] theorem State.taking_refusals : (s.taking e rest).refusals = s.refusals := rfl
@[simp] theorem State.taking_responses : (s.taking e rest).responses = s.responses := rfl
@[simp] theorem State.taking_schedule : (s.taking e rest).schedule = rest := rfl
@[simp] theorem State.taking_allocDraw : (s.taking e rest).allocDraw = e.alloc := rfl
@[simp] theorem State.taking_params : (s.taking e rest).params = s.params := rfl

end taking

section release
variable (s : State) 

@[simp] theorem State.release_life : (s.release).life = Life.uninit := rfl
@[simp] theorem State.release_cfg : (s.release).cfg = UartConfig.unset := rfl
@[simp] theorem State.release_dr : (s.release).dr = 0 := rfl
@[simp] theorem State.release_sr : (s.release).sr = 0 := rfl
@[simp] theorem State.release_cr1 : (s.release).cr1 = 0 := rfl
@[simp] theorem State.release_cr2 : (s.release).cr2 = 0 := rfl
@[simp] theorem State.release_brr : (s.release).brr = 0 := rfl
@[simp] theorem State.release_txq : (s.release).txq = none := rfl
@[simp] theorem State.release_rxq : (s.release).rxq = none := rfl
@[simp] theorem State.release_txInterruptEnabled : (s.release).txInterruptEnabled = false := rfl
@[simp] theorem State.release_rxInterruptEnabled : (s.release).rxInterruptEnabled = false := rfl
@[simp] theorem State.release_errorInterruptEnabled : (s.release).errorInterruptEnabled = false := rfl
@[simp] theorem State.release_txBusy : (s.release).txBusy = false := rfl
@[simp] theorem State.release_rxBusy : (s.release).rxBusy = false := rfl
@[simp] theorem State.release_currentError : (s.release).currentError = LatchedError.noError := rfl
@[simp] theorem State.release_lineOut : (s.release).lineOut = s.lineOut := rfl
@[simp] theorem State.release_refusals : (s.release).refusals = s.refusals := rfl
@[simp] theorem State.release_responses : (s.release).responses = s.responses := rfl
@[simp] theorem State.release_schedule : (s.release).schedule = s.schedule := rfl
@[simp] theorem State.release_allocDraw : (s.release).allocDraw = s.allocDraw := rfl
@[simp] theorem State.release_params : (s.release).params = s.params := rfl

end release

section initialised
variable (s : State) (c : UartConfig)

@[simp] theorem State.initialised_life : (s.initialised c).life = Life.ready := rfl
@[simp] theorem State.initialised_cfg : (s.initialised c).cfg = c := rfl
@[simp] theorem State.initialised_dr : (s.initialised c).dr = 0 := rfl
@[simp] theorem State.initialised_sr : (s.initialised c).sr = srAfterInit := rfl
@[simp] theorem State.initialised_cr1 : (s.initialised c).cr1 = 0 := rfl
@[simp] theorem State.initialised_cr2 : (s.initialised c).cr2 = stopCode c.stopBits := rfl
@[simp] theorem State.initialised_brr : (s.initialised c).brr = brrEncode s.params.brr c.baud := rfl
@[simp] theorem State.initialised_txq : (s.initialised c).txq = some [] := rfl
@[simp] theorem State.initialised_rxq : (s.initialised c).rxq = some [] := rfl
@[simp] theorem State.initialised_txInterruptEnabled : (s.initialised c).txInterruptEnabled = false := rfl
@[simp] theorem State.initialised_rxInterruptEnabled : (s.initialised c).rxInterruptEnabled = false := rfl
@[simp] theorem State.initialised_errorInterruptEnabled : (s.initialised c).errorInterruptEnabled = false := rfl
@[simp] theorem State.initialised_txBusy : (s.initialised c).txBusy = false := rfl
@[simp] theorem State.initialised_rxBusy : (s.initialised c).rxBusy = false := rfl
@[simp] theorem State.initialised_currentError : (s.initialised c).currentError = LatchedError.noError := rfl
@[simp] theorem State.initialised_lineOut : (s.initialised c).lineOut = s.lineOut := rfl
@[simp] theorem State.initialised_refusals : (s.initialised c).refusals = s.refusals := rfl
@[simp] theorem State.initialised_responses : (s.initialised c).responses = s.responses := rfl
@[simp] theorem State.initialised_schedule : (s.initialised c).schedule = s.schedule := rfl
@[simp] theorem State.initialised_allocDraw : (s.initialised c).allocDraw = s.allocDraw := rfl
@[simp] theorem State.initialised_params : (s.initialised c).params = s.params := rfl

end initialised

section clearLatch
variable (s : State) 

@[simp] theorem State.clearLatch_life : (s.clearLatch).life = s.life := rfl
@[simp] theorem State.clearLatch_cfg : (s.clearLatch).cfg = s.cfg := rfl
@[simp] theorem State.clearLatch_dr : (s.clearLatch).dr = s.dr := rfl
theorem State.clearLatch_sr : (s.clearLatch).sr = withBitClear (withBitClear (withBitClear s.sr srPE) srFE) srORE := rfl
@[simp] theorem State.clearLatch_cr1 : (s.clearLatch).cr1 = s.cr1 := rfl
@[simp] theorem State.clearLatch_cr2 : (s.clearLatch).cr2 = s.cr2 := rfl
@[simp] theorem State.clearLatch_brr : (s.clearLatch).brr = s.brr := rfl
@[simp] theorem State.clearLatch_txq : (s.clearLatch).txq = s.txq := rfl
@[simp] theorem State.clearLatch_rxq : (s.clearLatch).rxq = s.rxq := rfl
@[simp] theorem State.clearLatch_txInterruptEnabled : (s.clearLatch).txInterruptEnabled = s.txInterruptEnabled := rfl
@[simp] theorem State.clearLatch_rxInterruptEnabled : (s.clearLatch).rxInterruptEnabled = s.rxInterruptEnabled := rfl
@[simp] theorem State.clearLatch_errorInterruptEnabled : (s.clearLatch).errorInterruptEnabled = s.errorInterruptEnabled := rfl
@[simp] theorem State.clearLatch_txBusy : (s.clearLatch).txBusy = s.txBusy := rfl
@[simp] theorem State.clearLatch_rxBusy : (s.clearLatch).rxBusy = s.rxBusy := rfl
@[simp] theorem State.clearLatch_currentError : (s.clearLatch).currentError = LatchedError.noError := rfl
@[simp] theorem State.clearLatch_lineOut : (s.clearLatch).lineOut = s.lineOut := rfl
@[simp] theorem State.clearLatch_refusals : (s.clearLatch).refusals = s.refusals := rfl
@[simp] theorem State.clearLatch_responses : (s.clearLatch).responses = s.responses := rfl
@[simp] theorem State.clearLatch_schedule : (s.clearLatch).schedule = s.schedule := rfl
@[simp] theorem State.clearLatch_allocDraw : (s.clearLatch).allocDraw = s.allocDraw := rfl
@[simp] theorem State.clearLatch_params : (s.clearLatch).params = s.params := rfl

end clearLatch

section beginTransfer
variable (s : State) 

@[simp] theorem State.beginTransfer_life : (s.beginTransfer).life = s.life := rfl
@[simp] theorem State.beginTransfer_cfg : (s.beginTransfer).cfg = s.cfg := rfl
@[simp] theorem State.beginTransfer_dr : (s.beginTransfer).dr = s.dr := rfl
theorem State.beginTransfer_sr : (s.beginTransfer).sr = withBitClear (withBitClear s.sr srTXE) srTC := rfl
@[simp] theorem State.beginTransfer_cr1 : (s.beginTransfer).cr1 = s.cr1 := rfl
@[simp] theorem State.beginTransfer_cr2 : (s.beginTransfer).cr2 = s.cr2 := rfl
@[simp] theorem State.beginTransfer_brr : (s.beginTransfer).brr = s.brr := rfl
@[simp] theorem State.beginTransfer_txq : (s.beginTransfer).txq = s.txq := rfl
@[simp] theorem State.beginTransfer_rxq : (s.beginTransfer).rxq = s.rxq := rfl
@[simp] theorem State.beginTransfer_txInterruptEnabled : (s.beginTransfer).txInterruptEnabled = s.txInterruptEnabled := rfl
@[simp] theorem State.beginTransfer_rxInterruptEnabled : (s.beginTransfer).rxInterruptEnabled = s.rxInterruptEnabled := rfl
@[simp] theorem State.beginTransfer_errorInterruptEnabled : (s.beginTransfer).errorInterruptEnabled = s.errorInterruptEnabled := rfl
@[simp] theorem State.beginTransfer_txBusy : (s.beginTransfer).txBusy = true := rfl
@[simp] theorem State.beginTransfer_rxBusy : (s.beginTransfer).rxBusy = s.rxBusy := rfl
@[simp] theorem State.beginTransfer_currentError : (s.beginTransfer).currentError = s.currentError := rfl
@[simp] theorem State.beginTransfer_lineOut : (s.beginTransfer).lineOut = s.lineOut := rfl
@[simp] theorem State.beginTransfer_refusals : (s.beginTransfer).refusals = s.refusals := rfl
@[simp] theorem State.beginTransfer_responses : (s.beginTransfer).responses = s.responses := rfl
@[simp] theorem State.beginTransfer_schedule : (s.beginTransfer).schedule = s.schedule := rfl
@[simp] theorem State.beginTransfer_allocDraw : (s.beginTransfer).allocDraw = s.allocDraw := rfl
@[simp] theorem State.beginTransfer_params : (s.beginTransfer).params = s.params := rfl

end beginTransfer

section endTransfer
variable (s : State) 

@[simp] theorem State.endTransfer_life : (s.endTransfer).life = s.life := rfl
@[simp] theorem State.endTransfer_cfg : (s.endTransfer).cfg = s.cfg := rfl
@[simp] theorem State.endTransfer_dr : (s.endTransfer).dr = s.dr := rfl
theorem State.endTransfer_sr : (s.endTransfer).sr = withBitSet (withBitSet s.sr srTXE) srTC := rfl
@[simp] theorem State.endTransfer_cr1 : (s.endTransfer).cr1 = s.cr1 := rfl
@[simp] theorem State.endTransfer_cr2 : (s.endTransfer).cr2 = s.cr2 := rfl
@[simp] theorem State.endTransfer_brr : (s.endTransfer).brr = s.brr := rfl
@[simp] theorem State.endTransfer_txq : (s.endTransfer).txq = s.txq := rfl
@[simp] theorem State.endTransfer_rxq : (s.endTransfer).rxq = s.rxq := rfl
@[simp] theorem State.endTransfer_txInterruptEnabled : (s.endTransfer).txInterruptEnabled = s.txInterruptEnabled := rfl
@[simp] theorem State.endTransfer_rxInterruptEnabled : (s.endTransfer).rxInterruptEnabled = s.rxInterruptEnabled := rfl
@[simp] theorem State.endTransfer_errorInterruptEnabled : (s.endTransfer).errorInterruptEnabled = s.errorInterruptEnabled := rfl
@[simp] theorem State.endTransfer_txBusy : (s.endTransfer).txBusy = false := rfl
@[simp] theorem State.endTransfer_rxBusy : (s.endTransfer).rxBusy = s.rxBusy := rfl
@[simp] theorem State.endTransfer_currentError : (s.endTransfer).currentError = s.currentError := rfl
@[simp] theorem State.endTransfer_lineOut : (s.endTransfer).lineOut = s.lineOut := rfl
@[simp] theorem State.endTransfer_refusals : (s.endTransfer).refusals = s.refusals := rfl
@[simp] theorem State.endTransfer_responses : (s.endTransfer).responses = s.responses := rfl
@[simp] theorem State.endTransfer_schedule : (s.endTransfer).schedule = s.schedule := rfl
@[simp] theorem State.endTransfer_allocDraw : (s.endTransfer).allocDraw = s.allocDraw := rfl
@[simp] theorem State.endTransfer_params : (s.endTransfer).params = s.params := rfl

end endTransfer

/-! The latch and `putFlag` choose among updates: what they leave alone. -/

section latch
variable (s : State) (k : LineFault)

@[simp] theorem State.latch_life : (s.latch k).life = s.life := by cases k <;> rfl
@[simp] theorem State.latch_cfg : (s.latch k).cfg = s.cfg := by cases k <;> rfl
@[simp] theorem State.latch_dr : (s.latch k).dr = s.dr := by cases k <;> rfl
@[simp] theorem State.latch_cr1 : (s.latch k).cr1 = s.cr1 := by cases k <;> rfl
@[simp] theorem State.latch_cr2 : (s.latch k).cr2 = s.cr2 := by cases k <;> rfl
@[simp] theorem State.latch_brr : (s.latch k).brr = s.brr := by cases k <;> rfl
@[simp] theorem State.latch_txq : (s.latch k).txq = s.txq := by cases k <;> rfl
@[simp] theorem State.latch_rxq : (s.latch k).rxq = s.rxq := by cases k <;> rfl
@[simp] theorem State.latch_txInterruptEnabled : (s.latch k).txInterruptEnabled = s.txInterruptEnabled := by cases k <;> rfl
@[simp] theorem State.latch_rxInterruptEnabled : (s.latch k).rxInterruptEnabled = s.rxInterruptEnabled := by cases k <;> rfl
@[simp] theorem State.latch_errorInterruptEnabled : (s.latch k).errorInterruptEnabled = s.errorInterruptEnabled := by cases k <;> rfl
@[simp] theorem State.latch_txBusy : (s.latch k).txBusy = s.txBusy := by cases k <;> rfl
@[simp] theorem State.latch_rxBusy : (s.latch k).rxBusy = s.rxBusy := by cases k <;> rfl
@[simp] theorem State.latch_lineOut : (s.latch k).lineOut = s.lineOut := by cases k <;> rfl
@[simp] theorem State.latch_refusals : (s.latch k).refusals = s.refusals := by cases k <;> rfl
@[simp] theorem State.latch_responses : (s.latch k).responses = s.responses := by cases k <;> rfl
@[simp] theorem State.latch_schedule : (s.latch k).schedule = s.schedule := by cases k <;> rfl
@[simp] theorem State.latch_allocDraw : (s.latch k).allocDraw = s.allocDraw := by cases k <;> rfl
@[simp] theorem State.latch_params : (s.latch k).params = s.params := by cases k <;> rfl

end latch

section putFlag
variable (s : State) (k : BitIndex) (b : Bool)

@[simp] theorem State.putFlag_life : (s.putFlag k b).life = s.life := by cases b <;> rfl
@[simp] theorem State.putFlag_cfg : (s.putFlag k b).cfg = s.cfg := by cases b <;> rfl
@[simp] theorem State.putFlag_dr : (s.putFlag k b).dr = s.dr := by cases b <;> rfl
@[simp] theorem State.putFlag_cr1 : (s.putFlag k b).cr1 = s.cr1 := by cases b <;> rfl
@[simp] theorem State.putFlag_cr2 : (s.putFlag k b).cr2 = s.cr2 := by cases b <;> rfl
@[simp] theorem State.putFlag_brr : (s.putFlag k b).brr = s.brr := by cases b <;> rfl
@[simp] theorem State.putFlag_txq : (s.putFlag k b).txq = s.txq := by cases b <;> rfl
@[simp] theorem State.putFlag_rxq : (s.putFlag k b).rxq = s.rxq := by cases b <;> rfl
@[simp] theorem State.putFlag_txInterruptEnabled : (s.putFlag k b).txInterruptEnabled = s.txInterruptEnabled := by cases b <;> rfl
@[simp] theorem State.putFlag_rxInterruptEnabled : (s.putFlag k b).rxInterruptEnabled = s.rxInterruptEnabled := by cases b <;> rfl
@[simp] theorem State.putFlag_errorInterruptEnabled : (s.putFlag k b).errorInterruptEnabled = s.errorInterruptEnabled := by cases b <;> rfl
@[simp] theorem State.putFlag_txBusy : (s.putFlag k b).txBusy = s.txBusy := by cases b <;> rfl
@[simp] theorem State.putFlag_rxBusy : (s.putFlag k b).rxBusy = s.rxBusy := by cases b <;> rfl
@[simp] theorem State.putFlag_currentError : (s.putFlag k b).currentError = s.currentError := by cases b <;> rfl
@[simp] theorem State.putFlag_lineOut : (s.putFlag k b).lineOut = s.lineOut := by cases b <;> rfl
@[simp] theorem State.putFlag_refusals : (s.putFlag k b).refusals = s.refusals := by cases b <;> rfl
@[simp] theorem State.putFlag_responses : (s.putFlag k b).responses = s.responses := by cases b <;> rfl
@[simp] theorem State.putFlag_schedule : (s.putFlag k b).schedule = s.schedule := by cases b <;> rfl
@[simp] theorem State.putFlag_allocDraw : (s.putFlag k b).allocDraw = s.allocDraw := by cases b <;> rfl
@[simp] theorem State.putFlag_params : (s.putFlag k b).params = s.params := by cases b <;> rfl

/-- `SR.k <- b` on the register itself. -/
theorem State.putFlag_sr :
    (s.putFlag k b).sr = if b then withBitSet s.sr k else withBitClear s.sr k := by
  cases b <;> rfl

end putFlag

end Sys2Proof.Machine
end

