-- ==== Sys2Proof/Laws/Flags.lean ====
section
/-! SUPPORT. Laws of the bit operations and of the SR updates: what each bit reads after an update, and
each update of SR as one mask. -/

namespace Sys2Proof.Machine

open Sys2Proof

theorem bitOf_withBitSet (v : Byte) (j k : BitIndex) :
    bitOf (withBitSet v k) j = (decide (j = k) || bitOf v j) := by
  have hj := j.isLt
  simp only [bitOf, withBitSet, BitVec.getLsbD_or, BitVec.getLsbD_shiftLeft, BitVec.getLsbD_one,
    BitVec.toNat_eq]
  by_cases h : j.toNat = k.toNat
  · simp [h]; omega
  · by_cases h' : j.toNat < k.toNat
    · simp [h, h']
    · have : j.toNat - k.toNat ≠ 0 := by omega
      simp [h, this]

theorem bitOf_withBitClear (v : Byte) (j k : BitIndex) :
    bitOf (withBitClear v k) j = (decide (j ≠ k) && bitOf v j) := by
  have hj := j.isLt
  have hk := k.isLt
  simp only [bitOf, withBitClear, BitVec.getLsbD_and, BitVec.getLsbD_not, BitVec.getLsbD_shiftLeft,
    BitVec.getLsbD_one, ne_eq, BitVec.toNat_eq]
  by_cases h : j.toNat = k.toNat
  · simp [h]
  · by_cases h' : j.toNat < k.toNat
    · simp [h, h']; omega
    · have : j.toNat - k.toNat ≠ 0 := by omega
      simp [h, this]; omega

/-- SEND_BYTE and SEND_BUFFER clear SR bits 0 and 2 (R89). -/
@[simp] theorem State.beginTransfer_sr_mask (s : State) : s.beginTransfer.sr = s.sr &&& 0xFA := by
  simp only [State.beginTransfer_sr, withBitClear, BitVec.and_assoc]; rfl

/-- Draining the last byte sets SR bits 0 and 2 (R92). -/
@[simp] theorem State.endTransfer_sr_mask (s : State) : s.endTransfer.sr = s.sr ||| 0x05 := by
  simp only [State.endTransfer_sr, withBitSet, BitVec.or_assoc]; rfl

/-- CLEAR_ERROR clears SR bits 3, 4 and 5 (R105). -/
@[simp] theorem State.clearLatch_sr_mask (s : State) : s.clearLatch.sr = s.sr &&& 0xC7 := by
  simp only [State.clearLatch_sr, withBitClear, BitVec.and_assoc]; rfl

/-- RXNE set (R99). -/
theorem withBitSet_srRXNE (v : Byte) : withBitSet v srRXNE = v ||| 0x02 := rfl

/-- RXNE clear (R96). -/
theorem withBitClear_srRXNE (v : Byte) : withBitClear v srRXNE = v &&& 0xFD := rfl

/-- The SR bit and the code each latch writes (R106). -/
theorem State.latch_sr (s : State) (k : LineFault) :
    (s.latch k).sr = s.sr ||| (match k with | .parity => 0x08 | .framing => 0x10 | .overrun => 0x20) := by
  cases k <;> rfl

/-- The error each latch leaves in `current_error` (R106). -/
theorem State.latch_currentError (s : State) (k : LineFault) :
    (s.latch k).currentError
      = (match k with
          | .parity => .parityError | .framing => .framingError | .overrun => .overrunError) := by
  cases k <;> rfl

end Sys2Proof.Machine
end

