-- ==== Sys2Proof/Laws/Ops.lean ====
section
/-! SUPPORT. For each shared operation, what it can do: the checks of R115 when they let a command
through, the loops of R90 and R97 in closed form, the receive procedure of R99. -/

namespace Sys2Proof.Machine

open Sys2Proof

/-! ### The checks -/

@[simp] theorem whenAddressed_true (k : Result) : whenAddressed true k = k := rfl

@[simp] theorem whenAddressed_false (k : Result) : whenAddressed false k = .fault .noInstance := rfl

theorem whenReady_of_ready {s : State} (h : s.life = .ready) (k : Result) : whenReady s k = k := by
  simp [whenReady, h]

theorem whenReady_of_uninit {s : State} (h : s.life = .uninit) (k : Result) :
    whenReady s k = .fault .notInitialised := by
  simp [whenReady, h]

@[simp] theorem withFifo_some (q : List Byte) (k : List Byte → Result) : withFifo (some q) k = k q := rfl

@[simp] theorem withFifo_none (k : List Byte → Result) :
    withFifo none k = .fault .notInitialised := rfl

/-- A command that goes on was addressed (R111). -/
theorem whenAddressed_next {hp : Bool} {k : Result} {t : State} (h : whenAddressed hp k = .next t) :
    hp = true ∧ k = .next t := by
  cases hp <;> simp_all

/-- A command that goes on found the block Ready (R111). -/
theorem whenReady_next {s t : State} {k : Result} (h : whenReady s k = .next t) :
    s.life = .ready ∧ k = .next t := by
  unfold whenReady at h
  split at h <;> simp_all

/-- A command that goes on found the FIFO it reads. -/
theorem withFifo_next {q : Option (List Byte)} {k : List Byte → Result} {t : State}
    (h : withFifo q k = .next t) : ∃ bytes, q = some bytes ∧ k bytes = .next t := by
  cases q <;> simp_all

/-- `Ok(v)` adds one response and changes nothing else. -/
theorem answerOk_eq (v : Byte) (s : State) :
    answerOk v s = .next { s with responses := s.responses ++ [⟨0x00#8 ++ v, []⟩] } := rfl

/-- `Err(e)` adds one response and changes nothing else (R112). -/
theorem answerErr_eq (e : ResponseError) (s : State) :
    answerErr e s = .next { s with responses := s.responses ++ [⟨e.code ++ 0x00#8, []⟩] } := rfl

/-! ### The FIFO loops -/

@[simp] theorem fifoFull_iff (cap : Nat) (q : List Byte) : fifoFull cap q = true ↔ q.length = cap := by
  simp [fifoFull]

/-- The loop of R90 accepts the bytes that fit, and appends them in order. -/
theorem pushWhileRoom_eq (cap : Nat) (bs : List Byte) :
    ∀ q : List Byte, q.length ≤ cap →
      pushWhileRoom cap q bs = (q ++ bs.take (cap - q.length), bs.take (cap - q.length)) := by
  induction bs with
  | nil => intro q _; simp [pushWhileRoom]
  | cons b bs ih =>
    intro q hq
    by_cases hf : q.length = cap
    · simp [pushWhileRoom, hf]
    · obtain ⟨k, hk⟩ : ∃ k, cap - q.length = k + 1 := ⟨cap - q.length - 1, by omega⟩
      have hk' : cap - (q ++ [b]).length = k := by simp; omega
      have := ih (q ++ [b]) (by simp; omega)
      rw [hk'] at this
      simp [pushWhileRoom, hf, this, hk]

/-- Whatever the FIFO held, the loop of R90 appends what it accepts, and that is an initial part of the
bytes offered. -/
theorem pushWhileRoom_appends (cap : Nat) (bs : List Byte) :
    ∀ q : List Byte, (pushWhileRoom cap q bs).1 = q ++ (pushWhileRoom cap q bs).2 ∧
      (pushWhileRoom cap q bs).2 <+: bs := by
  induction bs with
  | nil => intro q; simp [pushWhileRoom]
  | cons b bs ih =>
    intro q
    by_cases hf : fifoFull cap q = true
    · simp [pushWhileRoom, hf]
    · have := ih (q ++ [b])
      simp only [pushWhileRoom, hf]
      exact ⟨by simp [this.1], by simpa using this.2⟩

/-- The loop of R97 takes the oldest bytes and leaves the others. -/
theorem popUpTo_eq (m : Nat) : ∀ q : List Byte, popUpTo m q = (q.take m, q.drop m) := by
  induction m with
  | zero => intro q; simp [popUpTo]
  | succ m ih => intro q; cases q <;> simp [popUpTo, ih]

/-! ### The receive procedure -/

/-- Storing a frame: the byte, RXNE, and the faults the frame shows, framing last (R99, R107). -/
theorem storeFrame_eq (q : List Byte) (v : Byte) (pe fe : Bool) (s : State) :
    storeFrame q v pe fe s = { s with
      rxq := some (q ++ [v &&& dataMask s.cfg.dataBits])
      sr := s.sr ||| 0x02 ||| (if parityFault pe s then 0x08 else 0x00)
        ||| (if fe then 0x10 else 0x00)
      currentError :=
        if fe then .framingError
        else if parityFault pe s then .parityError else s.currentError } := by
  cases hp : parityFault pe s <;> cases fe <;>
    simp [storeFrame, hp, State.latch, State.setFlag, withBitSet, srRXNE, srPE, srFE]

/-- Everything the receive procedure can do (R99): nothing without an RX FIFO, an overrun into a full
one, and otherwise the byte stored and the frame's faults latched. -/
theorem receive_cases (v : Byte) (pe fe : Bool) (s : State) :
    (s.rxq = none ∧ receive v pe fe s = s) ∨
    (∃ q, s.rxq = some q ∧ q.length = s.params.cap ∧
      receive v pe fe s = { s with sr := s.sr ||| 0x20, currentError := .overrunError }) ∨
    (∃ q, s.rxq = some q ∧ q.length ≠ s.params.cap ∧
      receive v pe fe s = { s with
        rxq := some (q ++ [v &&& dataMask s.cfg.dataBits])
        sr := s.sr ||| 0x02 ||| (if parityFault pe s then 0x08 else 0x00)
          ||| (if fe then 0x10 else 0x00)
        currentError :=
          if fe then .framingError
          else if parityFault pe s then .parityError else s.currentError }) := by
  obtain h | ⟨q, h⟩ : s.rxq = none ∨ ∃ q, s.rxq = some q := by cases s.rxq <;> simp
  · exact .inl ⟨h, by simp [receive, h]⟩
  · by_cases hf : q.length = s.params.cap
    · have e : receive v pe fe s = s.latch .overrun := by simp [receive, h, hf]
      exact .inr (.inl ⟨q, h, hf, e.trans rfl⟩)
    · have e : receive v pe fe s = storeFrame q v pe fe s := by simp [receive, h, hf]
      exact .inr (.inr ⟨q, h, hf, e.trans (storeFrame_eq q v pe fe s)⟩)

/-- The receive procedure writes `rxq`, SR and `current_error` alone. -/
theorem receive_frame (v : Byte) (pe fe : Bool) (s : State) :
    receive v pe fe s = { s with
      rxq := (receive v pe fe s).rxq
      sr := (receive v pe fe s).sr
      currentError := (receive v pe fe s).currentError } := by
  obtain ⟨h, e⟩ | ⟨q, h, _, e⟩ | ⟨q, h, _, e⟩ := receive_cases v pe fe s <;> rw [e]

end Sys2Proof.Machine
end

