-- ==== Sys2Proof/Laws/Paths.lean ====
section
/-! SUPPORT. What the data-path updates write and what they leave alone, field by field: `receive` (R99),
`queued` (R89, R90), `drain` (R92) and `taken` (R96, R97). -/

namespace Sys2Proof.Machine

open Sys2Proof

section receive
variable (v : Byte) (pe fe : Bool) (s : State)

@[simp] theorem receive_life : (receive v pe fe s).life = s.life := by rw [receive_frame]
@[simp] theorem receive_cfg : (receive v pe fe s).cfg = s.cfg := by rw [receive_frame]
@[simp] theorem receive_dr : (receive v pe fe s).dr = s.dr := by rw [receive_frame]
@[simp] theorem receive_cr1 : (receive v pe fe s).cr1 = s.cr1 := by rw [receive_frame]
@[simp] theorem receive_cr2 : (receive v pe fe s).cr2 = s.cr2 := by rw [receive_frame]
@[simp] theorem receive_brr : (receive v pe fe s).brr = s.brr := by rw [receive_frame]
@[simp] theorem receive_txq : (receive v pe fe s).txq = s.txq := by rw [receive_frame]
@[simp] theorem receive_txInterruptEnabled : (receive v pe fe s).txInterruptEnabled = s.txInterruptEnabled := by rw [receive_frame]
@[simp] theorem receive_rxInterruptEnabled : (receive v pe fe s).rxInterruptEnabled = s.rxInterruptEnabled := by rw [receive_frame]
@[simp] theorem receive_errorInterruptEnabled : (receive v pe fe s).errorInterruptEnabled = s.errorInterruptEnabled := by rw [receive_frame]
@[simp] theorem receive_txBusy : (receive v pe fe s).txBusy = s.txBusy := by rw [receive_frame]
@[simp] theorem receive_rxBusy : (receive v pe fe s).rxBusy = s.rxBusy := by rw [receive_frame]
@[simp] theorem receive_lineOut : (receive v pe fe s).lineOut = s.lineOut := by rw [receive_frame]
@[simp] theorem receive_refusals : (receive v pe fe s).refusals = s.refusals := by rw [receive_frame]
@[simp] theorem receive_responses : (receive v pe fe s).responses = s.responses := by rw [receive_frame]
@[simp] theorem receive_schedule : (receive v pe fe s).schedule = s.schedule := by rw [receive_frame]
@[simp] theorem receive_allocDraw : (receive v pe fe s).allocDraw = s.allocDraw := by rw [receive_frame]
@[simp] theorem receive_params : (receive v pe fe s).params = s.params := by rw [receive_frame]

end receive

section queued
variable (q : List Byte) (b : Byte) (s : State)

@[simp] theorem State.queued_life : (s.queued q b).life = s.life := rfl
@[simp] theorem State.queued_cfg : (s.queued q b).cfg = s.cfg := rfl
@[simp] theorem State.queued_dr : (s.queued q b).dr = b := rfl
@[simp] theorem State.queued_sr : (s.queued q b).sr = s.sr &&& 0xFA := State.beginTransfer_sr_mask _
@[simp] theorem State.queued_cr1 : (s.queued q b).cr1 = s.cr1 := rfl
@[simp] theorem State.queued_cr2 : (s.queued q b).cr2 = s.cr2 := rfl
@[simp] theorem State.queued_brr : (s.queued q b).brr = s.brr := rfl
@[simp] theorem State.queued_txq : (s.queued q b).txq = some q := rfl
@[simp] theorem State.queued_rxq : (s.queued q b).rxq = s.rxq := rfl
@[simp] theorem State.queued_txInterruptEnabled : (s.queued q b).txInterruptEnabled = s.txInterruptEnabled := rfl
@[simp] theorem State.queued_rxInterruptEnabled : (s.queued q b).rxInterruptEnabled = s.rxInterruptEnabled := rfl
@[simp] theorem State.queued_errorInterruptEnabled : (s.queued q b).errorInterruptEnabled = s.errorInterruptEnabled := rfl
@[simp] theorem State.queued_txBusy : (s.queued q b).txBusy = true := rfl
@[simp] theorem State.queued_rxBusy : (s.queued q b).rxBusy = s.rxBusy := rfl
@[simp] theorem State.queued_currentError : (s.queued q b).currentError = s.currentError := rfl
@[simp] theorem State.queued_lineOut : (s.queued q b).lineOut = s.lineOut := rfl
@[simp] theorem State.queued_refusals : (s.queued q b).refusals = s.refusals := rfl
@[simp] theorem State.queued_responses : (s.queued q b).responses = s.responses := rfl
@[simp] theorem State.queued_schedule : (s.queued q b).schedule = s.schedule := rfl
@[simp] theorem State.queued_allocDraw : (s.queued q b).allocDraw = s.allocDraw := rfl
@[simp] theorem State.queued_params : (s.queued q b).params = s.params := rfl

end queued

section taken
variable (b : Byte) (q : List Byte) (s : State)

@[simp] theorem State.taken_life : (s.taken b q).life = s.life := by simp [State.taken]
@[simp] theorem State.taken_cfg : (s.taken b q).cfg = s.cfg := by simp [State.taken]
@[simp] theorem State.taken_dr : (s.taken b q).dr = b := by simp [State.taken]
@[simp] theorem State.taken_cr1 : (s.taken b q).cr1 = s.cr1 := by simp [State.taken]
@[simp] theorem State.taken_cr2 : (s.taken b q).cr2 = s.cr2 := by simp [State.taken]
@[simp] theorem State.taken_brr : (s.taken b q).brr = s.brr := by simp [State.taken]
@[simp] theorem State.taken_txq : (s.taken b q).txq = s.txq := by simp [State.taken]
@[simp] theorem State.taken_rxq : (s.taken b q).rxq = some q := by simp [State.taken]
@[simp] theorem State.taken_txInterruptEnabled : (s.taken b q).txInterruptEnabled = s.txInterruptEnabled := by simp [State.taken]
@[simp] theorem State.taken_rxInterruptEnabled : (s.taken b q).rxInterruptEnabled = s.rxInterruptEnabled := by simp [State.taken]
@[simp] theorem State.taken_errorInterruptEnabled : (s.taken b q).errorInterruptEnabled = s.errorInterruptEnabled := by simp [State.taken]
@[simp] theorem State.taken_txBusy : (s.taken b q).txBusy = s.txBusy := by simp [State.taken]
@[simp] theorem State.taken_rxBusy : (s.taken b q).rxBusy = s.rxBusy := by simp [State.taken]
@[simp] theorem State.taken_currentError : (s.taken b q).currentError = s.currentError := by simp [State.taken]
@[simp] theorem State.taken_lineOut : (s.taken b q).lineOut = s.lineOut := by simp [State.taken]
@[simp] theorem State.taken_refusals : (s.taken b q).refusals = s.refusals := by simp [State.taken]
@[simp] theorem State.taken_responses : (s.taken b q).responses = s.responses := by simp [State.taken]
@[simp] theorem State.taken_schedule : (s.taken b q).schedule = s.schedule := by simp [State.taken]
@[simp] theorem State.taken_allocDraw : (s.taken b q).allocDraw = s.allocDraw := by simp [State.taken]
@[simp] theorem State.taken_params : (s.taken b q).params = s.params := by simp [State.taken]

@[simp] theorem State.taken_sr :
    (s.taken b q).sr = if q = [] then s.sr &&& 0xFD else s.sr ||| 0x02 := by
  cases q <;> rfl

end taken

section drain
variable (b : Byte) (q : List Byte) (s : State)

@[simp] theorem drain_life : (drain b q s).life = s.life := by
  unfold drain; split <;> split <;> simp
@[simp] theorem drain_cfg : (drain b q s).cfg = s.cfg := by
  unfold drain; split <;> split <;> simp
@[simp] theorem drain_dr : (drain b q s).dr = s.dr := by
  unfold drain; split <;> split <;> simp
@[simp] theorem drain_cr1 : (drain b q s).cr1 = s.cr1 := by
  unfold drain; split <;> split <;> simp
@[simp] theorem drain_cr2 : (drain b q s).cr2 = s.cr2 := by
  unfold drain; split <;> split <;> simp
@[simp] theorem drain_brr : (drain b q s).brr = s.brr := by
  unfold drain; split <;> split <;> simp
@[simp] theorem drain_txq : (drain b q s).txq = some q := by
  unfold drain; split <;> split <;> simp
@[simp] theorem drain_txInterruptEnabled : (drain b q s).txInterruptEnabled = s.txInterruptEnabled := by
  unfold drain; split <;> split <;> simp
@[simp] theorem drain_rxInterruptEnabled : (drain b q s).rxInterruptEnabled = s.rxInterruptEnabled := by
  unfold drain; split <;> split <;> simp
@[simp] theorem drain_errorInterruptEnabled : (drain b q s).errorInterruptEnabled = s.errorInterruptEnabled := by
  unfold drain; split <;> split <;> simp
@[simp] theorem drain_rxBusy : (drain b q s).rxBusy = s.rxBusy := by
  unfold drain; split <;> split <;> simp
@[simp] theorem drain_lineOut : (drain b q s).lineOut = s.lineOut ++ [b &&& dataMask s.cfg.dataBits] := by
  unfold drain; split <;> split <;> simp
@[simp] theorem drain_refusals : (drain b q s).refusals = s.refusals := by
  unfold drain; split <;> split <;> simp
@[simp] theorem drain_responses : (drain b q s).responses = s.responses := by
  unfold drain; split <;> split <;> simp
@[simp] theorem drain_schedule : (drain b q s).schedule = s.schedule := by
  unfold drain; split <;> split <;> simp
@[simp] theorem drain_allocDraw : (drain b q s).allocDraw = s.allocDraw := by
  unfold drain; split <;> split <;> simp
@[simp] theorem drain_params : (drain b q s).params = s.params := by
  unfold drain; split <;> split <;> simp

/-- The byte sent and the FIFO left, before the receiver and the flags (R92). -/
def State.sent (b : Byte) (q : List Byte) (s : State) : State :=
  { s with txq := some q, lineOut := s.lineOut ++ [b &&& dataMask s.cfg.dataBits] }

@[simp] theorem State.sent_life : (s.sent b q).life = s.life := rfl
@[simp] theorem State.sent_cfg : (s.sent b q).cfg = s.cfg := rfl
@[simp] theorem State.sent_dr : (s.sent b q).dr = s.dr := rfl
@[simp] theorem State.sent_sr : (s.sent b q).sr = s.sr := rfl
@[simp] theorem State.sent_cr1 : (s.sent b q).cr1 = s.cr1 := rfl
@[simp] theorem State.sent_cr2 : (s.sent b q).cr2 = s.cr2 := rfl
@[simp] theorem State.sent_brr : (s.sent b q).brr = s.brr := rfl
@[simp] theorem State.sent_txq : (s.sent b q).txq = some q := rfl
@[simp] theorem State.sent_rxq : (s.sent b q).rxq = s.rxq := rfl
@[simp] theorem State.sent_txInterruptEnabled : (s.sent b q).txInterruptEnabled = s.txInterruptEnabled := rfl
@[simp] theorem State.sent_rxInterruptEnabled : (s.sent b q).rxInterruptEnabled = s.rxInterruptEnabled := rfl
@[simp] theorem State.sent_errorInterruptEnabled : (s.sent b q).errorInterruptEnabled = s.errorInterruptEnabled := rfl
@[simp] theorem State.sent_txBusy : (s.sent b q).txBusy = s.txBusy := rfl
@[simp] theorem State.sent_rxBusy : (s.sent b q).rxBusy = s.rxBusy := rfl
@[simp] theorem State.sent_currentError : (s.sent b q).currentError = s.currentError := rfl
@[simp] theorem State.sent_lineOut : (s.sent b q).lineOut = s.lineOut ++ [b &&& dataMask s.cfg.dataBits] := rfl
@[simp] theorem State.sent_refusals : (s.sent b q).refusals = s.refusals := rfl
@[simp] theorem State.sent_responses : (s.sent b q).responses = s.responses := rfl
@[simp] theorem State.sent_schedule : (s.sent b q).schedule = s.schedule := rfl
@[simp] theorem State.sent_allocDraw : (s.sent b q).allocDraw = s.allocDraw := rfl
@[simp] theorem State.sent_params : (s.sent b q).params = s.params := rfl

/-- Everything a drain can do (R92): with or without a receive of the byte, and with or without the
flags of a FIFO drained. -/
theorem drain_eq :
    drain b q s =
      (let r := if s.params.loopback then receive (b &&& dataMask s.cfg.dataBits) false false (s.sent b q)
        else s.sent b q
      if q = [] then r.endTransfer else r) := by
  cases q <;> rfl

/-- Without LOOPBACK a drain writes the FIFO, the line and, of a FIFO drained, the flags (R92). -/
theorem drain_without_loopback (h : s.params.loopback = false) :
    drain b q s = if q = [] then (s.sent b q).endTransfer else s.sent b q := by
  rw [drain_eq]; simp [h]

end drain

end Sys2Proof.Machine
end

