-- ==== Sys2Proof/Laws/Exec.lean ====
section
/-! SUPPORT. For each instruction, what it can do when it goes on: one inversion lemma a meaning, so that
no later proof unfolds one. -/

namespace Sys2Proof.Machine

open Sys2Proof

variable {s t : State}

/-- A command guarded by the two checks of R111 that answers `Ok(v)` from the state `u`. -/
theorem answered_next {hp : Bool} {v : Byte} {u : State}
    (h : whenAddressed hp (whenReady s (answerOk v u)) = .next t) :
    hp = true ∧ s.life = .ready ∧ t = u.respond (Response.ok v) := by
  obtain ⟨hh, h⟩ := whenAddressed_next h
  obtain ⟨hl, h⟩ := whenReady_next h
  cases h
  exact ⟨hh, hl, rfl⟩

theorem execRegRead_next {hp : Bool} {reg : Csr} (h : execRegRead hp reg s = .next t) :
    hp = true ∧ s.life = .ready ∧ t = s.respond (Response.ok (readCsr reg s)) :=
  answered_next h

theorem execTestBit_next {hp : Bool} {reg : Csr} {k : BitIndex} (h : execTestBit hp reg k s = .next t) :
    hp = true ∧ s.life = .ready ∧
      t = s.respond (Response.ok (byteOfBool (bitOf (readCsr reg s) k))) :=
  answered_next h

theorem execSetBit_next {hp : Bool} {k : BitIndex} (h : execSetBit hp k s = .next t) :
    hp = true ∧ s.life = .ready ∧
      t = ({ s with cr1 := withBitSet s.cr1 k } : State).respond (Response.ok 0x00) :=
  answered_next h

theorem execClearBit_next {hp : Bool} {k : BitIndex} (h : execClearBit hp k s = .next t) :
    hp = true ∧ s.life = .ready ∧
      t = ({ s with cr1 := withBitClear s.cr1 k } : State).respond (Response.ok 0x00) :=
  answered_next h

theorem execTeardown_next {hp : Bool} (h : execTeardown hp s = .next t) :
    hp = true ∧ s.life = .ready ∧ t = s.release.respond (Response.ok 0x00) :=
  answered_next h

theorem execIsTxEmpty_next {hp : Bool} (h : execIsTxEmpty hp s = .next t) :
    hp = true ∧ s.life = .ready ∧ t = s.respond (Response.ok (byteOfBool (s.flag srTXE))) :=
  answered_next h

theorem execIsDataReady_next {hp : Bool} (h : execIsDataReady hp s = .next t) :
    hp = true ∧ s.life = .ready ∧ t = s.respond (Response.ok (byteOfBool (s.flag srRXNE))) :=
  answered_next h

theorem execGetError_next {hp : Bool} (h : execGetError hp s = .next t) :
    hp = true ∧ s.life = .ready ∧ t = s.respond (Response.ok s.currentError.code) :=
  answered_next h

theorem execClearError_next {hp : Bool} (h : execClearError hp s = .next t) :
    hp = true ∧ s.life = .ready ∧ t = s.clearLatch.respond (Response.ok 0x00) :=
  answered_next h

/-- INIT answers NULL_POINTER and changes nothing, or takes its draw: the whole of R82. -/
theorem execInit_next {hp : Bool} {cfg : Option UartConfig} (h : execInit hp cfg s = .next t) :
    ((hp = false ∨ cfg = none) ∧ t = s.respond (Response.err .nullPointer)) ∨
    ∃ c, hp = true ∧ cfg = some c ∧
      ((drawAlloc s = .ok ∧ t = (s.initialised c).respond (Response.ok 0x00)) ∨
       (drawAlloc s ≠ .ok ∧ t = s.release.respond (Response.err .bufferCreateFailure))) := by
  cases hp <;> cases cfg <;> simp only [execInit, answerErr] at h
  all_goals cases h
  · exact .inl ⟨.inl rfl, rfl⟩
  · exact .inl ⟨.inl rfl, rfl⟩
  · exact .inl ⟨.inr rfl, rfl⟩
  · refine .inr ⟨_, rfl, rfl, ?_⟩
    cases hd : drawAlloc s <;> simp [initWith]

theorem execSendByte_next {hp : Bool} {b : Byte} (h : execSendByte hp b s = .next t) :
    (hp = false ∧ t = s.respond (Response.err .nullPointer)) ∨
    ∃ q, hp = true ∧ s.life = .ready ∧ s.txq = some q ∧
      ((q.length = s.params.cap ∧ t = s.respond (Response.err .bufferFull)) ∨
       (q.length ≠ s.params.cap ∧ t = (s.queued (q ++ [b]) b).respond (Response.ok 0x00))) := by
  cases hp
  · cases h; exact .inl ⟨rfl, rfl⟩
  · obtain ⟨hl, h⟩ := whenReady_next h
    obtain ⟨q, hq, h⟩ := withFifo_next h
    refine .inr ⟨q, rfl, hl, hq, ?_⟩
    by_cases hf : q.length = s.params.cap <;> simp [hf, answerErr, answerOk] at h <;> simp [hf, h]

theorem execSendBuffer_next {hp : Bool} {p : List Byte} (h : execSendBuffer hp p s = .next t) :
    hp = true ∧ s.life = .ready ∧ ∃ q, s.txq = some q ∧
      (((pushWhileRoom s.params.cap q p).2 = [] ∧ t = s.respond (Response.ok 0x00)) ∨
       ∃ b, (pushWhileRoom s.params.cap q p).2.getLast? = some b ∧
        t = (s.queued (pushWhileRoom s.params.cap q p).1 b).respond
          (Response.ok (BitVec.ofNat 8 (pushWhileRoom s.params.cap q p).2.length))) := by
  obtain ⟨hh, h⟩ := whenAddressed_next h
  obtain ⟨hl, h⟩ := whenReady_next h
  obtain ⟨q, hq, h⟩ := withFifo_next h
  refine ⟨hh, hl, q, hq, ?_⟩
  simp only at h
  split at h <;> rename_i hg <;> cases h
  · exact .inl ⟨by simpa using hg, rfl⟩
  · exact .inr ⟨_, hg, rfl⟩

theorem execReceiveByte_next {hp : Bool} (h : execReceiveByte hp s = .next t) :
    (hp = false ∧ t = s.respond (Response.err .nullPointer)) ∨
    (hp = true ∧ s.life = .ready ∧ s.rxq = some [] ∧ t = s.respond (Response.err .bufferEmpty)) ∨
    (∃ b q, hp = true ∧ s.life = .ready ∧ s.rxq = some (b :: q) ∧
      t = (s.taken b q).respond (Response.ok b)) := by
  cases hp
  · cases h; exact .inl ⟨rfl, rfl⟩
  · obtain ⟨hl, h⟩ := whenReady_next h
    obtain ⟨q, hq, h⟩ := withFifo_next h
    cases q <;> cases h
    · exact .inr (.inl ⟨rfl, hl, hq, rfl⟩)
    · exact .inr (.inr ⟨_, _, rfl, hl, hq, rfl⟩)

theorem execReceiveBuffer_next {hp : Bool} {m : BitVec 8} (h : execReceiveBuffer hp m s = .next t) :
    hp = true ∧ s.life = .ready ∧ ∃ q, s.rxq = some q ∧
      ((q.take m.toNat = [] ∧ t = s.respond (Response.okWith 0x00 [])) ∨
       ∃ b, (q.take m.toNat).getLast? = some b ∧
        t = (s.taken b (q.drop m.toNat)).respond
          (Response.okWith (BitVec.ofNat 8 (q.take m.toNat).length) (q.take m.toNat))) := by
  obtain ⟨hh, h⟩ := whenAddressed_next h
  obtain ⟨hl, h⟩ := whenReady_next h
  obtain ⟨q, hq, h⟩ := withFifo_next h
  refine ⟨hh, hl, q, hq, ?_⟩
  simp only [popUpTo_eq] at h
  split at h <;> rename_i hg <;> cases h
  · exact .inl ⟨by simpa using hg, rfl⟩
  · exact .inr ⟨_, hg, rfl⟩

/-- TX_SHIFT drains a byte where it is enabled, and changes nothing elsewhere. -/
theorem execTxShift_next (h : execTxShift s = .next t) :
    (∃ b q, s.life = .ready ∧ s.txq = some (b :: q) ∧ t = drain b q s) ∨
    ((s.life = .uninit ∨ ∀ b q, s.txq ≠ some (b :: q)) ∧ t = s) := by
  unfold execTxShift at h
  split at h <;> cases h
  · exact .inl ⟨_, _, ‹_›, ‹_›, rfl⟩
  · rename_i hn
    refine .inr ⟨?_, rfl⟩
    cases hl : s.life
    · exact .inl rfl
    · exact .inr fun b q hq => hn b q hl hq

theorem execRxFrame_next {fe pe : Bool} {v : Byte} (h : execRxFrame fe pe v s = .next t) :
    (s.life = .ready ∧ t = receive v pe fe s) ∨ (s.life = .uninit ∧ t = s) := by
  unfold execRxFrame at h
  split at h <;> cases h
  · exact .inl ⟨‹_›, rfl⟩
  · exact .inr ⟨‹_›, rfl⟩

/-- Everything an instruction can do when it goes on, one constructor per way: the state it leaves. -/
inductive Effect (s : State) : Instr → State → Prop where
  | initNull (hp cfg) : (hp = false ∨ cfg = none) →
      Effect s (.init hp cfg) (s.respond (Response.err .nullPointer))
  | initOk (c) : drawAlloc s = .ok →
      Effect s (.init true (some c)) ((s.initialised c).respond (Response.ok 0x00))
  | initFail (c) : drawAlloc s ≠ .ok →
      Effect s (.init true (some c)) (s.release.respond (Response.err .bufferCreateFailure))
  | sendByteNull (b) : Effect s (.sendByte false b) (s.respond (Response.err .nullPointer))
  | sendByteFull (b q) : s.life = .ready → s.txq = some q → q.length = s.params.cap →
      Effect s (.sendByte true b) (s.respond (Response.err .bufferFull))
  | sendByteOk (b q) : s.life = .ready → s.txq = some q → q.length ≠ s.params.cap →
      Effect s (.sendByte true b) ((s.queued (q ++ [b]) b).respond (Response.ok 0x00))
  | sendBufferNone (p q) : s.life = .ready → s.txq = some q →
      (pushWhileRoom s.params.cap q p).2 = [] →
      Effect s (.sendBuffer true p) (s.respond (Response.ok 0x00))
  | sendBufferSome (p q b) : s.life = .ready → s.txq = some q →
      (pushWhileRoom s.params.cap q p).2.getLast? = some b →
      Effect s (.sendBuffer true p) ((s.queued (pushWhileRoom s.params.cap q p).1 b).respond
        (Response.ok (BitVec.ofNat 8 (pushWhileRoom s.params.cap q p).2.length)))
  | isTxEmpty : s.life = .ready →
      Effect s (.isTxEmpty true) (s.respond (Response.ok (byteOfBool (s.flag srTXE))))
  | receiveByteNull : Effect s (.receiveByte false) (s.respond (Response.err .nullPointer))
  | receiveByteEmpty : s.life = .ready → s.rxq = some [] →
      Effect s (.receiveByte true) (s.respond (Response.err .bufferEmpty))
  | receiveByteOk (b q) : s.life = .ready → s.rxq = some (b :: q) →
      Effect s (.receiveByte true) ((s.taken b q).respond (Response.ok b))
  | receiveBufferNone (m q) : s.life = .ready → s.rxq = some q → q.take m.toNat = [] →
      Effect s (.receiveBuffer true m) (s.respond (Response.okWith 0x00 []))
  | receiveBufferSome (m q b) : s.life = .ready → s.rxq = some q →
      (q.take m.toNat).getLast? = some b →
      Effect s (.receiveBuffer true m) ((s.taken b (q.drop m.toNat)).respond
        (Response.okWith (BitVec.ofNat 8 (q.take m.toNat).length) (q.take m.toNat)))
  | isDataReady : s.life = .ready →
      Effect s (.isDataReady true) (s.respond (Response.ok (byteOfBool (s.flag srRXNE))))
  | getError : s.life = .ready →
      Effect s (.getError true) (s.respond (Response.ok s.currentError.code))
  | clearError : s.life = .ready →
      Effect s (.clearError true) (s.clearLatch.respond (Response.ok 0x00))
  | regRead (r) : s.life = .ready →
      Effect s (.regRead true r) (s.respond (Response.ok (readCsr r s)))
  | testBit (r k) : s.life = .ready →
      Effect s (.testBit true r k) (s.respond (Response.ok (byteOfBool (bitOf (readCsr r s) k))))
  | setBit (k) : s.life = .ready →
      Effect s (.setBit true k)
        (({ s with cr1 := withBitSet s.cr1 k } : State).respond (Response.ok 0x00))
  | clearBit (k) : s.life = .ready →
      Effect s (.clearBit true k)
        (({ s with cr1 := withBitClear s.cr1 k } : State).respond (Response.ok 0x00))
  | teardown : s.life = .ready → Effect s (.teardown true) (s.release.respond (Response.ok 0x00))
  | rxFrame (fe pe v) : s.life = .ready → Effect s (.rxFrame fe pe v) (receive v pe fe s)
  | rxFrameOff (fe pe v) : s.life = .uninit → Effect s (.rxFrame fe pe v) s
  | txShift (b q) : s.life = .ready → s.txq = some (b :: q) → Effect s .txShift (drain b q s)
  | reserved (bits) : Effect s (.reserved bits) (s.markRefused .reservedEncoding)
  | txShiftOff : (s.life = .uninit ∨ ∀ b q, s.txq ≠ some (b :: q)) → Effect s .txShift s

/-- Say once what an instruction can do: proofs about `exec` split on this. -/
theorem exec_effect {i : Instr} (h : exec i s = .next t) : Effect s i t := by
  cases i <;> simp only [exec] at h
  case init hp cfg =>
    obtain ⟨hn, rfl⟩ | ⟨c, rfl, rfl, ⟨hd, rfl⟩ | ⟨hd, rfl⟩⟩ := execInit_next h
    · exact .initNull _ _ hn
    · exact .initOk _ hd
    · exact .initFail _ hd
  case sendByte hp b =>
    obtain ⟨rfl, rfl⟩ | ⟨q, rfl, hl, hq, ⟨hf, rfl⟩ | ⟨hf, rfl⟩⟩ := execSendByte_next h
    · exact .sendByteNull _
    · exact .sendByteFull _ q hl hq hf
    · exact .sendByteOk _ q hl hq hf
  case sendBuffer hp p =>
    obtain ⟨rfl, hl, q, hq, ⟨hn, rfl⟩ | ⟨b, hb, rfl⟩⟩ := execSendBuffer_next h
    · exact .sendBufferNone _ q hl hq hn
    · exact .sendBufferSome _ q b hl hq hb
  case isTxEmpty => obtain ⟨rfl, hl, rfl⟩ := execIsTxEmpty_next h; exact .isTxEmpty hl
  case receiveByte =>
    obtain ⟨rfl, rfl⟩ | ⟨rfl, hl, hq, rfl⟩ | ⟨b, q, rfl, hl, hq, rfl⟩ := execReceiveByte_next h
    · exact .receiveByteNull
    · exact .receiveByteEmpty hl hq
    · exact .receiveByteOk b q hl hq
  case receiveBuffer hp m =>
    obtain ⟨rfl, hl, q, hq, ⟨hn, rfl⟩ | ⟨b, hb, rfl⟩⟩ := execReceiveBuffer_next h
    · exact .receiveBufferNone m q hl hq hn
    · exact .receiveBufferSome m q b hl hq hb
  case isDataReady => obtain ⟨rfl, hl, rfl⟩ := execIsDataReady_next h; exact .isDataReady hl
  case getError => obtain ⟨rfl, hl, rfl⟩ := execGetError_next h; exact .getError hl
  case clearError => obtain ⟨rfl, hl, rfl⟩ := execClearError_next h; exact .clearError hl
  case regRead => obtain ⟨rfl, hl, rfl⟩ := execRegRead_next h; exact .regRead _ hl
  case testBit => obtain ⟨rfl, hl, rfl⟩ := execTestBit_next h; exact .testBit _ _ hl
  case setBit => obtain ⟨rfl, hl, rfl⟩ := execSetBit_next h; exact .setBit _ hl
  case clearBit => obtain ⟨rfl, hl, rfl⟩ := execClearBit_next h; exact .clearBit _ hl
  case teardown => obtain ⟨rfl, hl, rfl⟩ := execTeardown_next h; exact .teardown hl
  case rxFrame fe pe v =>
    obtain ⟨hl, rfl⟩ | ⟨hl, rfl⟩ := execRxFrame_next h
    · exact .rxFrame _ _ _ hl
    · exact .rxFrameOff _ _ _ hl
  case txShift =>
    obtain ⟨b, q, hl, hq, rfl⟩ | ⟨hn, rfl⟩ := execTxShift_next h
    · exact .txShift b q hl hq
    · exact .txShiftOff hn
  case reserved => cases h; exact .reserved _

/-- And each of those ways is one `exec` takes. -/
theorem Effect.exec {i : Instr} (h : Effect s i t) : exec i s = .next t := by
  cases h
  case initNull hp cfg hn => cases hp <;> cases cfg <;> simp_all [Machine.exec, execInit, answerErr]
  case initOk c hd => simp [Machine.exec, execInit, hd, initWith]
  case initFail c hd => cases h : drawAlloc s <;> simp_all [Machine.exec, execInit, initWith]
  case sendByteNull => rfl
  case sendByteFull hl hq hf =>
    simp [Machine.exec, execSendByte, whenReady_of_ready hl, hq, hf, answerErr]
  case sendByteOk hl hq hf =>
    simp [Machine.exec, execSendByte, whenReady_of_ready hl, hq, hf, answerOk]
  case sendBufferNone hl hq hn =>
    simp [Machine.exec, execSendBuffer, whenReady_of_ready hl, hq, hn, answerOk]
  case sendBufferSome hl hq hb =>
    simp [Machine.exec, execSendBuffer, whenReady_of_ready hl, hq, hb, answerOk]
  case isTxEmpty hl => exact whenReady_of_ready hl _
  case receiveByteNull => rfl
  case receiveByteEmpty hl hq =>
    simp [Machine.exec, execReceiveByte, whenReady_of_ready hl, hq, answerErr]
  case receiveByteOk hl hq =>
    simp [Machine.exec, execReceiveByte, whenReady_of_ready hl, hq, answerOk]
  case receiveBufferNone m q hl hq hn =>
    simp [Machine.exec, execReceiveBuffer, whenReady_of_ready hl, hq, popUpTo_eq, hn]
  case receiveBufferSome m q b hl hq hb =>
    simp only [Machine.exec, execReceiveBuffer, whenReady_of_ready hl, hq, popUpTo_eq, hb,
      whenAddressed_true, withFifo_some]
  case isDataReady hl => exact whenReady_of_ready hl _
  case getError hl => exact whenReady_of_ready hl _
  case clearError hl => exact whenReady_of_ready hl _
  case regRead hl => exact whenReady_of_ready hl _
  case testBit hl => exact whenReady_of_ready hl _
  case setBit hl => exact whenReady_of_ready hl _
  case clearBit hl => exact whenReady_of_ready hl _
  case teardown hl => exact whenReady_of_ready hl _
  case rxFrame hl => simp [Machine.exec, execRxFrame, hl]
  case rxFrameOff hl => simp [Machine.exec, execRxFrame, hl]
  case txShift hl hq => simp [Machine.exec, execTxShift, hl, hq]
  case reserved => rfl
  case txShiftOff hn =>
    simp only [Machine.exec, execTxShift]
    split <;> simp_all

/-- Every instruction of the table has a meaning here: none ends as a refusal. -/
theorem exec_not_refused (i : Instr) (s : State) (r : Refusal) : exec i s ≠ .refused r := by
  intro h
  cases i
  case reserved => cases h
  case init hp c => cases hp <;> cases c <;> simp [exec, execInit, answerErr] at h
  case rxFrame => simp only [exec, execRxFrame] at h; split at h <;> simp at h
  case txShift => simp only [exec, execTxShift] at h; split at h <;> simp at h
  all_goals
    simp only [exec, execSendByte, execSendBuffer, execReceiveByte, execReceiveBuffer, execIsTxEmpty,
      execIsDataReady, execGetError, execClearError, execRegRead, execTestBit, execSetBit,
      execClearBit, execTeardown, whenAddressed, whenReady, withFifo, answerOk, answerErr] at h
    repeat' split at h
  all_goals simp at h

/-- A step that goes on is idle, runs what the next event decodes to, or refuses it (R117). -/
theorem step_next (h : step s = .next t) :
    (s.schedule = [] ∧ t = s) ∨
    (∃ e rest i, s.schedule = e :: rest ∧ decode e.input = .ok i ∧
      exec i (s.taking e rest) = .next t) ∨
    (∃ e rest r, s.schedule = e :: rest ∧ decode e.input = .error r ∧
      t = (s.taking e rest).markRefused r) := by
  unfold step at h
  split at h
  · cases h; exact .inl ⟨‹_›, rfl⟩
  · split at h
    · exact .inr (.inl ⟨_, _, _, ‹_›, ‹_›, h⟩)
    · cases h; exact .inr (.inr ⟨_, _, _, ‹_›, ‹_›, rfl⟩)

end Sys2Proof.Machine
end

