-- ==== Sys2Proof/Laws/PerInstr.lean ====
section
/-! SUPPORT. The family `TablePattern`: the word an instruction encodes to has the fixed bits that its row of
spec/opcode_table.json gives as mask and match (R75), one lemma a constructor. A line event has no command
word; its row of the table has no fixed bits. -/

namespace Sys2Proof.Laws

open Sys2Proof

/-- A row's `mask` and `match`. -/
structure TableRow where
  mask  : CommandWord
  bits : CommandWord
  deriving DecidableEq, Repr

/-- The mask and match of the row of each command, from spec/opcode_table.json. -/
def tableRow : Instr → Option TableRow
  | .init _ _ => some ⟨0xF380, 0x0000⟩
  | .sendByte _ _ => some ⟨0xF700, 0x1000⟩
  | .sendBuffer _ _ => some ⟨0xF700, 0x2000⟩
  | .isTxEmpty _ => some ⟨0xF7FF, 0x3000⟩
  | .receiveByte _ => some ⟨0xF7FF, 0x4000⟩
  | .receiveBuffer _ _ => some ⟨0xF700, 0x5000⟩
  | .isDataReady _ => some ⟨0xF7FF, 0x6000⟩
  | .getError _ => some ⟨0xF7FF, 0x7000⟩
  | .clearError _ => some ⟨0xF7FF, 0x8000⟩
  | .regRead _ _ => some ⟨0xF0FF, 0x9000⟩
  | .testBit _ _ _ => some ⟨0xF0F8, 0xA000⟩
  | .setBit _ _ => some ⟨0xF7F8, 0xB200⟩
  | .clearBit _ _ => some ⟨0xF7F8, 0xC200⟩
  | .teardown _ => some ⟨0xF7FF, 0xD000⟩
  | .rxFrame _ _ _ => none
  | .txShift => none
  | .reserved _ => some ⟨0xE000, 0xE000⟩

/-- The input `x` is a command word with the fixed bits of `row`, or no command word where there is no row. -/
def fitsRow (row : Option TableRow) (x : PortInput) : Prop :=
  match row, x with
  | some r, .command w _ => w &&& r.mask = r.bits
  | none, .frame _ => True
  | none, .shift => True
  | _, _ => False

/-- What the family says of one instruction. -/
def TablePattern.Statement (i : Instr) : Prop := fitsRow (tableRow i) (encode i)

theorem TablePattern.init (hp : Bool) (cfg : Option UartConfig) : Statement (.init hp cfg) := by
  obtain _ | ⟨b, p, d, s⟩ := cfg
  · cases hp <;> rfl
  · cases hp <;> cases b <;> cases p <;> cases d <;> cases s <;> rfl

theorem TablePattern.sendByte (hp : Bool) (data : Byte) : Statement (.sendByte hp data) := by
  have h : ∀ (hp : Bool) (v : Byte), formatB 0x1#4 hp v &&& 0xF700 = 0x1000 := by decide
  exact h hp data

theorem TablePattern.sendBuffer (hp : Bool) (bytes : List Byte) : Statement (.sendBuffer hp bytes) := by
  have h : ∀ (hp : Bool) (v : Byte), formatB 0x2#4 hp v &&& 0xF700 = 0x2000 := by decide
  exact h hp _

theorem TablePattern.isTxEmpty (hp : Bool) : Statement (.isTxEmpty hp) := by cases hp <;> rfl

theorem TablePattern.receiveByte (hp : Bool) : Statement (.receiveByte hp) := by cases hp <;> rfl

theorem TablePattern.receiveBuffer (hp : Bool) (maxLength : BitVec 8) :
    Statement (.receiveBuffer hp maxLength) := by
  have h : ∀ (hp : Bool) (v : Byte), formatB 0x5#4 hp v &&& 0xF700 = 0x5000 := by decide
  exact h hp maxLength

theorem TablePattern.isDataReady (hp : Bool) : Statement (.isDataReady hp) := by cases hp <;> rfl

theorem TablePattern.getError (hp : Bool) : Statement (.getError hp) := by cases hp <;> rfl

theorem TablePattern.clearError (hp : Bool) : Statement (.clearError hp) := by cases hp <;> rfl

theorem TablePattern.regRead (hp : Bool) (reg : Csr) : Statement (.regRead hp reg) := by
  cases hp <;> cases reg <;> rfl

theorem TablePattern.testBit (hp : Bool) (reg : Csr) (bit : BitIndex) :
    Statement (.testBit hp reg bit) := by
  have h : ∀ (hp : Bool) (r k : BitVec 3), formatR 0xA#4 hp r k &&& 0xF0F8 = 0xA000 := by decide
  exact h hp _ bit

theorem TablePattern.setBit (hp : Bool) (bit : BitIndex) : Statement (.setBit hp bit) := by
  have h : ∀ (hp : Bool) (k : BitVec 3), formatR 0xB#4 hp 2#3 k &&& 0xF7F8 = 0xB200 := by decide
  exact h hp bit

theorem TablePattern.clearBit (hp : Bool) (bit : BitIndex) : Statement (.clearBit hp bit) := by
  have h : ∀ (hp : Bool) (k : BitVec 3), formatR 0xC#4 hp 2#3 k &&& 0xF7F8 = 0xC200 := by decide
  exact h hp bit

theorem TablePattern.teardown (hp : Bool) : Statement (.teardown hp) := by cases hp <;> rfl

theorem TablePattern.rxFrame (feIn peIn : Bool) (data : Byte) : Statement (.rxFrame feIn peIn data) :=
  trivial

theorem TablePattern.txShift : Statement .txShift := trivial

theorem TablePattern.reserved (bits : BitVec 13) : Statement (.reserved bits) := by
  have h : (0b111#3 ++ bits : CommandWord) &&& (0b111#3 ++ 0#13) = 0b111#3 ++ 0#13 := by
    rw [BitVec.and_append]; simp
  exact h

end Sys2Proof.Laws
end

