-- ==== Sys2Proof/Laws/Safety.lean ====
section
/-! SUPPORT. Laws of runs: an invariant of the step holds along a run, and where a clean run ends (R137). -/

namespace Sys2Proof.Machine

open Sys2Proof

/-- A run of `k + 1` steps that goes on is a step that goes on and a run of `k` steps. -/
theorem run_succ {k : Nat} {s t : State} (h : Host.Core.run Sys2Proof.core (k + 1) s = .next t) :
    ∃ u : State, step s = .next u ∧ Host.Core.run Sys2Proof.core k u = .next t := by
  simp only [Host.Core.run] at h
  cases hs : Sys2Proof.core.step s with
  | next u => rw [hs] at h; exact ⟨u, hs, h⟩
  | fault f => rw [hs] at h; cases h
  | refused r => rw [hs] at h; cases h

/-- What every step keeps, every run keeps: the induction over runs, once. -/
theorem run_keeps {P : State → Prop} (keep : ∀ s t : State, P s → step s = .next t → P t) :
    ∀ (k : Nat) (s t : State), P s → Host.Core.run Sys2Proof.core k s = .next t → P t := by
  intro k
  induction k with
  | zero => intro s t hs h; cases h; exact hs
  | succ k ih =>
    intro s t hs h
    obtain ⟨u, hu, h⟩ := run_succ h
    exact ih u t (keep s u hs hu) h

@[simp] theorem isHostCommand_command (w : CommandWord) (p : List Byte) (a : Alloc) :
    isHostCommand ⟨.command w p, a⟩ = true := rfl

@[simp] theorem isHostCommand_frame (f : LineWord) (a : Alloc) :
    isHostCommand ⟨.frame f, a⟩ = false := rfl

@[simp] theorem isHostCommand_shift (a : Alloc) : isHostCommand ⟨.shift, a⟩ = false := rfl

/-- Line events alone need no step of a clean run. -/
theorem stepsToLastCommand_of_no_command {lines : List Event}
    (h : ∀ e ∈ lines, isHostCommand e = false) : stepsToLastCommand lines = 0 := by
  induction lines with
  | nil => rfl
  | cons e lines ih => simp_all [stepsToLastCommand]

/-- A clean run takes the steps up to and including the last command. -/
theorem stepsToLastCommand_append {before lines : List Event} {e : Event}
    (he : isHostCommand e = true) (h : ∀ e ∈ lines, isHostCommand e = false) :
    stepsToLastCommand (before ++ e :: lines) = before.length + 1 := by
  induction before with
  | nil => simp [stepsToLastCommand, stepsToLastCommand_of_no_command h, he]
  | cons b before ih => simp [stepsToLastCommand, ih]

/-- A run ends cleanly in one state at most. -/
theorem endsCleanly_unique {s t u : State} (ht : endsCleanly s t) (hu : endsCleanly s u) : t = u := by
  have h := ht.1.symm.trans hu.1
  cases h
  rfl

end Sys2Proof.Machine
end

