-- ==== Sys2Proof/Tests/Slice0.lean ====
section
/-! SUPPORT. The model's own tests: the well-formedness smoke tests, decoding of words written out from the
spec's encodings, one or two steps an instruction, and a witness for the hypotheses of each statement.
Expected results are those of spec/95_test_vectors.md (W, V and P numbers) and of the rules' examples. -/

namespace Sys2Proof.Tests

open Sys2Proof Sys2Proof.Machine

/-! ### States to start from -/

def cfgN81 : UartConfig := ⟨.b9600, .none, .eight, .one⟩
def cfgE82 : UartConfig := ⟨.b38400, .even, .eight, .two⟩
def cfgO72 : UartConfig := ⟨.b115200, .odd, .seven, .two⟩

/-- Parameters with a FIFO small enough to fill. -/
def small : Params := { Params.reference with cap := 2 }
def looped : Params := { small with loopback := true }
def failing : Params := { small with allocCanFail := true }

/-- Power-on, and `S(c)` of 95_test_vectors.md section 0. -/
def off (p : Params) : State := State.powerOn p .ok
def on (p : Params) (c : UartConfig) : State := (off p).initialised c

/-- `s` with bytes queued for the transmitter, as SEND_BYTEs leave it. -/
def sending (q : List Byte) (s : State) : State :=
  { s with txq := some q, txBusy := true, sr := s.sr &&& 0xFA, dr := q.getLastD 0 }

/-- `s` with received bytes waiting, as RX_FRAMEs leave it. -/
def received (q : List Byte) (s : State) : State := { s with rxq := some q, sr := s.sr ||| 0x02 }

/-- `s` with one event to come. -/
def next (x : PortInput) (s : State) : State := { s with schedule := [⟨x, .ok⟩] }

def stateOf : Result → Option State
  | .next t => some t
  | _ => none

def faultOf? : Result → Option Fault
  | .fault f => some f
  | _ => none

/-- What `f` sees of the state after one step on `x`. -/
def after {α : Type} (f : State → α) (x : PortInput) (s : State) : Option α :=
  (stateOf (step (next x s))).map f

/-- The response words of the step. -/
def answers (t : State) : List ResponseWord := t.responses.map (·.word)

/-! ### Well-formedness -/

theorem test_wf_refuses_256_bytes : (Instr.sendBuffer true (List.replicate 256 0)).wellFormed = false := by
  simp only [Instr.wellFormed, List.length_replicate]; rfl

theorem test_wf_admits_255_bytes : (Instr.sendBuffer true (List.replicate 255 0)).wellFormed = true := by
  simp only [Instr.wellFormed, List.length_replicate]; rfl

/-! ### Decoding words written out from the encodings of R62 to R67 -/

theorem test_decode_init : decode (.command 0b0000110000100000 []) = .ok (.init true (some cfgN81)) := rfl
theorem test_decode_init_fields :
    decode (.command 0b0000110001010100 []) = .ok (.init true (some cfgO72)) := rfl
theorem test_decode_init_nocfg : decode (.command 0b0000000000000000 []) = .ok (.init false none) := rfl
theorem test_decode_sendByte : decode (.command 0b0001100001000001 []) = .ok (.sendByte true 0x41) := rfl
theorem test_decode_sendBuffer :
    decode (.command 0b0010100000000011 [0x10, 0x20, 0x30])
      = .ok (.sendBuffer true [0x10, 0x20, 0x30]) := rfl
theorem test_decode_isTxEmpty : decode (.command 0b0011100000000000 []) = .ok (.isTxEmpty true) := rfl
theorem test_decode_receiveByte : decode (.command 0b0100100000000000 []) = .ok (.receiveByte true) := rfl
theorem test_decode_receiveBuffer :
    decode (.command 0b0101100000000010 []) = .ok (.receiveBuffer true 2) := rfl
theorem test_decode_isDataReady : decode (.command 0b0110100000000000 []) = .ok (.isDataReady true) := rfl
theorem test_decode_getError : decode (.command 0b0111100000000000 []) = .ok (.getError true) := rfl
theorem test_decode_clearError : decode (.command 0b1000100000000000 []) = .ok (.clearError true) := rfl
theorem test_decode_regRead : decode (.command 0b1001100100000000 []) = .ok (.regRead true .sr) := rfl
theorem test_decode_testBit : decode (.command 0b1010100100000011 []) = .ok (.testBit true .sr 3) := rfl
theorem test_decode_setBit : decode (.command 0b1011101000000011 []) = .ok (.setBit true 3) := rfl
theorem test_decode_clearBit : decode (.command 0b1100101000000011 []) = .ok (.clearBit true 3) := rfl
theorem test_decode_teardown : decode (.command 0b1101100000000000 []) = .ok (.teardown true) := rfl
theorem test_decode_rxFrame : decode (.frame 0b0101010101) = .ok (.rxFrame false true 0x55) := rfl
theorem test_decode_rxFrame_fe : decode (.frame 0b1010101010) = .ok (.rxFrame true false 0xAA) := rfl
theorem test_decode_txShift : decode .shift = .ok .txShift := rfl
theorem test_decode_reserved : decode (.command 0b1110000000000000 []) = .ok (.reserved 0) := rfl

/-- V3 to V18: the reserved words of each format. -/
theorem test_decode_refuses_reserved :
    ∀ w ∈ ([0x3801, 0x0C25, 0x0C27, 0x0C38, 0x0CA0, 0x0D20, 0x0801, 0x1941, 0x5C02, 0x9D00, 0x9F00,
        0x9901, 0xA908, 0xAD00, 0xB800, 0xB900, 0xCB05, 0xBA10] : List CommandWord),
      decode (.command w []) = .error .reservedEncoding := by
  simp only [List.forall_mem_cons, List.not_mem_nil, false_implies, implies_true, and_true]
  repeat' constructor

/-- V19 to V21: a payload that does not match. -/
theorem test_decode_refuses_payload :
    decode (.command 0x2802 [1, 2, 3]) = .error .payloadMismatch ∧
    decode (.command 0x2803 []) = .error .payloadMismatch ∧
    decode (.command 0x1841 [5]) = .error .payloadMismatch := ⟨rfl, rfl, rfl⟩

/-! ### Steps -/

/-- V39. -/
theorem test_init_from_power_on :
    after (fun t => (answers t, { t with responses := [] })) (.command 0x0C20 []) (off Params.reference)
      = some ([0x0000], on Params.reference cfgN81) := by decide

/-- V45: a failed draw leaves no FIFO, even of a Ready block. -/
theorem test_init_failed_draw :
    (stateOf (step { sending [1] (on failing cfgN81) with
        schedule := [⟨.command 0x0C20 [], .txFail⟩] })).map (fun t => (answers t, t.life, t.txq))
      = some ([0x0600], .uninit, none) := by decide

/-- V50. -/
theorem test_sendByte :
    after (fun t => (answers t, t.txq, t.dr, t.sr, t.txBusy)) (.command 0x1841 [])
      (on Params.reference cfgN81) = some ([0x0000], some [0x41], 0x41, 0x00, true) := by decide

/-- V64: HP is checked before the lifecycle. -/
theorem test_sendByte_nh :
    after answers (.command 0x1041 []) (off Params.reference) = some [0x0100] := by decide

/-- R90: one place left, so the first byte fits and the second is not kept. -/
theorem test_sendBuffer_partial :
    after (fun t => (answers t, t.txq, t.dr)) (.command 0x2802 [0x0A, 0x0B]) (sending [1] (on small cfgN81))
      = some ([0x0001], some [1, 0x0A], 0x0A) := by decide

/-- V56: a count of 0 leaves TC. -/
theorem test_sendBuffer_empty :
    after (fun t => (answers t, t.sr)) (.command 0x2800 []) { on small cfgN81 with sr := 0x05 }
      = some ([0x0000], 0x05) := by decide

/-- V59. -/
theorem test_isTxEmpty :
    after answers (.command 0x3800 []) (sending [0x41] (on small cfgN81)) = some [0x0000] := by decide

/-- The example of R96. -/
theorem test_receiveByte :
    after (fun t => (answers t, t.rxq, t.dr, t.sr)) (.command 0x4800 [])
      (received [0x41, 0x42] (on small cfgN81)) = some ([0x0041], some [0x42], 0x41, 0x03) := by decide

/-- W10. -/
theorem test_receiveByte_empty :
    after answers (.command 0x4800 []) (on small cfgN81) = some [0x0700] := by decide

/-- The example of R97. -/
theorem test_receiveBuffer :
    after (fun t => (t.responses, t.rxq, t.dr)) (.command 0x5802 [])
      (received [1, 2, 3] (on Params.reference cfgN81))
      = some ([⟨0x0002, [1, 2]⟩], some [3], 2) := by decide

/-- The example of R98. -/
theorem test_isDataReady :
    after answers (.command 0x6800 []) (on small cfgN81) = some [0x0000] := by decide

/-- W17: GET_ERROR after a parity fault. -/
theorem test_getError :
    after answers (.command 0x7800 []) { on small cfgE82 with sr := 0x0B, currentError := .parityError }
      = some [0x0003] := by decide

/-- The example of R105. -/
theorem test_clearError :
    after (fun t => (answers t, t.sr, t.currentError)) (.command 0x8800 [])
      { on small cfgE82 with sr := 0x0B, currentError := .parityError }
      = some ([0x0000], 0x03, .noError) := by decide

/-- V26. -/
theorem test_regRead_brr :
    after answers (.command 0x9C00 []) (on Params.reference { cfgN81 with baud := .b19200 })
      = some [0x0006] := by decide

/-- V32. -/
theorem test_testBit :
    after answers (.command 0xAB05 []) (on Params.reference cfgE82) = some [0x0001] := by decide

/-- V33. -/
theorem test_setBit :
    after (fun t => (answers t, t.cr1)) (.command 0xBA01 []) (on Params.reference cfgN81)
      = some ([0x0000], 0x02) := by decide

/-- V37. -/
theorem test_clearBit :
    after (fun t => (answers t, t.cr1)) (.command 0xCA03 []) { on Params.reference cfgN81 with cr1 := 0x0D }
      = some ([0x0000], 0x05) := by decide

/-- V47. -/
theorem test_teardown :
    after (fun t => (answers t, t.life, t.txq, t.rxq)) (.command 0xD800 []) (on Params.reference cfgN81)
      = some ([0x0000], .uninit, none, none) := by decide

/-- The example of R100. -/
theorem test_rxFrame :
    after (fun t => (t.rxq, t.sr, t.currentError)) (.frame 0x155) (on Params.reference cfgE82)
      = some (some [0x55], 0x0B, .parityError) := by decide

/-- P4, line 4: an overrun drops the frame and its framing fault. -/
theorem test_rxFrame_overrun :
    after (fun t => (t.rxq, t.sr, t.currentError)) (.frame 0x2AA) (received [1, 2] (on small cfgN81))
      = some (some [1, 2], 0x23, .overrunError) := by decide

/-- V61: 7 data bits, looped back. -/
theorem test_txShift_looped :
    after (fun t => (t.lineOut, t.rxq, t.sr, t.txBusy)) .shift (sending [0xC1] (on looped cfgO72))
      = some ([0x41], some [0x41], 0x07, false) := by decide

/-- V51: a byte left in the FIFO. -/
theorem test_txShift_more :
    after (fun t => (t.lineOut, t.txq, t.sr, t.txBusy)) .shift (sending [1, 2] (on small cfgN81))
      = some ([1], some [2], 0x00, true) := by decide

/-- V22: refused before the lifecycle, with no response and no change but the mark. -/
theorem test_reserved :
    (stateOf (step (next (.command 0xE800 []) (off small))))
      = some { off small with refusals := [.reservedEncoding] } := by decide

/-- V19: a refusal of the decoder. -/
theorem test_refusal_payload :
    (stateOf (step (next (.command 0x2802 [1, 2, 3]) (on small cfgN81))))
      = some { on small cfgN81 with refusals := [.payloadMismatch] } := by decide

/-- V48, V63, V65: the faults. -/
theorem test_faults :
    faultOf? (step (next (.command 0xD800 []) (off small))) = some .notInitialised ∧
    faultOf? (step (next (.command 0x1841 []) (off small))) = some .notInitialised ∧
    faultOf? (step (next (.command 0x2000 []) (on small cfgN81))) = some .noInstance := by decide

/-- R137: the drain after the last command is still to come in the end state. -/
theorem test_end_before_drain :
    ∃ t, endsCleanly { on small cfgN81 with
        schedule := [⟨.command 0x1841 [], .ok⟩, ⟨.shift, .ok⟩] } t ∧
      t.txq = some [0x41] ∧ t.lineOut = [] ∧ t.schedule = [⟨.shift, .ok⟩] :=
  ⟨_, ⟨rfl, rfl⟩, rfl, rfl, rfl⟩

/-! ### The table words -/

theorem test_table_words :
    decodeTableWord 16 0x1000 = some (.sendByte false 0) ∧
    decodeTableWord 16 0xB200 = some (.setBit false 0) ∧
    decodeTableWord 16 0x2003 = some (.sendBuffer false [0, 0, 0]) ∧
    decodeTableWord 10 0x2AA = some (.rxFrame true false 0xAA) ∧
    decodeTableWord 0 0 = some .txShift ∧
    decodeTableWord 16 0xE000 = some (.reserved 0) ∧
    decodeTableWord 16 0x3001 = none := by decide

/-- `withFetchWord` makes a word the very next event of the machine at reset. -/
theorem test_withFetchWord :
    step (State.reset.withFetchWord 16 0x1841)
      = .fault .notInitialised ∧
    step (State.reset.withFetchWord 16 0xE000)
      = refuse .reservedEncoding { State.reset with allocDraw := Config.allocDraw 0 } := ⟨rfl, rfl⟩

/-! ### Witnesses: states and operands that meet the hypotheses of each statement -/

/-- A Ready block with both FIFOs full and an overrun latched meets the invariant. -/
def busy : State :=
  { on small cfgN81 with
    txq := some [1, 2], rxq := some [3, 4], txBusy := true, sr := 0x22, currentError := .overrunError }

theorem test_busy_inv : busy.Inv :=
  ⟨by decide, by decide, fun _ => ⟨[1, 2], [3, 4], rfl, rfl,
    ⟨by decide, by decide, by decide, by decide, by decide, by decide, by decide,
      ⟨by decide, by decide, by decide, by decide⟩, by decide, by decide, by decide, by decide, by decide,
      by decide⟩⟩⟩

/-- A Ready block right after INIT meets the invariant. -/
theorem test_on_inv : (on small cfgE82).Inv :=
  ⟨by decide, by decide, fun _ => ⟨[], [], rfl, rfl,
    ⟨by decide, by decide, by decide, by decide, by decide, by decide, by decide,
      ⟨by decide, by decide, by decide, by decide⟩, by decide, by decide, by decide, by decide, by decide,
      by decide⟩⟩⟩

theorem test_witness_PowerOnHoldsNoValue :
    (∃ p d s, s = State.powerOn p d) ∧ (∃ s, s = State.reset) ∧
    isCommand (.testBit true .brr 7) = true ∧ isAddressed (.testBit true .brr 7) = true ∧
    (∀ hp cfg, Instr.testBit true .brr 7 ≠ .init hp cfg) ∧
    (∀ bits, Instr.testBit true .brr 7 ≠ .reserved bits) :=
  ⟨⟨small, .ok, _, rfl⟩, ⟨_, rfl⟩, rfl, rfl, nofun, nofun⟩

theorem test_witness_StepKeepsInvariant : ∃ s t : State, s.Inv ∧ step s = .next t :=
  ⟨busy, _, test_busy_inv, rfl⟩

theorem test_witness_ReachedReadyStatesShowTheirFifos :
    ∃ t, small.wf ∧ Host.Core.run Sys2Proof.core 2
        { State.powerOn small .ok with
          schedule := [⟨.command 0x0C20 [], .ok⟩, ⟨.command 0x1841 [], .ok⟩] } = .next t ∧
      t.life = .ready :=
  ⟨_, by decide, rfl, rfl⟩

/-- At both ends: an empty and a full TX FIFO. -/
theorem test_witness_TxeShowsIdleAndRoom :
    ((on small cfgE82).Inv ∧ (on small cfgE82).life = .ready ∧ (on small cfgE82).txq = some []) ∧
    (busy.Inv ∧ busy.life = .ready ∧ busy.txq = some [1, 2] ∧ [1, 2].length = busy.params.cap) :=
  ⟨⟨test_on_inv, rfl, rfl⟩, ⟨test_busy_inv, rfl, rfl, rfl⟩⟩

theorem test_witness_StepRunsDecodedInstruction :
    (next (.command 0x1841 []) busy).schedule = ⟨.command 0x1841 [], .ok⟩ :: [] ∧
    decode (.command 0x1841 []) = .ok (.sendByte true 0x41) := ⟨rfl, rfl⟩

theorem test_witness_IdleStepChangesNothing : busy.schedule = [] := rfl

theorem test_witness_StepTakesOneEventAndKeepsParameters :
    ∃ t, step (next (.command 0x3800 []) busy) = .next t := ⟨_, rfl⟩

/-- Each clause: a reserved word with no payload, a bad payload on a word of no reserved kind, both (with
and without opcode 2), neither, and the two line events. -/
theorem test_witness_StepRefusesExactlyReservedWords :
    (reservedWord 0xE000 ∧ ¬ badPayload 0xE000 []) ∧
    (¬ reservedWord 0x2803 ∧ badPayload 0x2803 []) ∧
    (reservedWord 0xE000 ∧ badPayload 0xE000 [1]) ∧ (reservedWord 0x2901 ∧ badPayload 0x2901 []) ∧
    (¬ reservedWord 0x0C64 ∧ ¬ badPayload 0x0C64 [] ∧
      ∃ t, step (next (.command 0x0C64 []) busy) = .next t) ∧
    (∃ t, step (next (.frame 0x2AA) busy) = .next t) ∧
    (∃ t, step (next .shift busy) = .next t) := by
  refine ⟨?_, ?_, ?_, ?_, ⟨?_, ?_, _, rfl⟩, ⟨_, rfl⟩, ⟨_, rfl⟩⟩ <;> simp only [reservedWord, badPayload] <;>
    decide

theorem test_witness_FaultsAreExactlyTheTableOfOutcomes : busy.Inv := test_busy_inv

theorem test_witness_EachInstructionHasExactlyOneWord :
    (Instr.sendBuffer true (List.replicate 255 7)).wellFormed = true ∧
    decode (.command 0x28FF (List.replicate 255 7)) = .ok (.sendBuffer true (List.replicate 255 7)) := by
  have h : ∀ p : List Byte, p.length = 255 →
      decode (.command 0x28FF p) = .ok (.sendBuffer true p) := by
    intro p hp
    have e : decode (.command 0x28FF p) = decodeSendBuffer 0x28FF p := rfl
    simp only [e, decodeSendBuffer, hp]
    rfl
  exact ⟨by simp only [Instr.wellFormed, List.length_replicate]; rfl, h _ List.length_replicate⟩

/-- For every statement on one command: a Ready and an Uninit block. REG_READ also names the CSR indices at
the ends of the reserved range. -/
theorem test_witness_RegReadAnswersWholeRegister :
    busy.life = .ready ∧ (off small).life = .uninit ∧ 5#3 ≤ 5#3 ∧ 5#3 ≤ 7#3 := by decide

theorem test_witness_TestBitAnswersOneBit :
    busy.life = .ready ∧ (off small).life = .uninit ∧
    ∀ reg : Csr, ∃ v : Byte, v = (match reg with
      | .dr => busy.dr | .sr => busy.sr | .cr1 => busy.cr1 | .cr2 => busy.cr2 | .brr => busy.brr) :=
  ⟨rfl, rfl, fun _ => ⟨_, rfl⟩⟩

theorem test_witness_SetBitSetsOneCr1Bit :
    busy.life = .ready ∧ (off small).life = .uninit ∧ 0#3 ≠ 2#3 ∧ 7#3 ≠ 2#3 := by decide

theorem test_witness_ClearBitClearsOneCr1Bit :
    busy.life = .ready ∧ (off small).life = .uninit ∧ 1#3 ≠ 2#3 ∧ 3#3 ≠ 2#3 := by decide

theorem test_witness_OnlyListedWritersChangeEachRegister :
    ∃ t, exec (.sendByte true 0x41) (on small cfgE82) = .next t ∧
      t.dr ≠ (on small cfgE82).dr ∧ t.sr ≠ (on small cfgE82).sr :=
  ⟨_, rfl, by decide, by decide⟩

theorem test_witness_Cr1BitsAffectNothingElse :
    (∀ hp, Instr.txShift ≠ .regRead hp .cr1) ∧ (∀ hp k, Instr.txShift ≠ .testBit hp .cr1 k) ∧
    (∃ t, exec .txShift busy = .next t) ∧ (∃ f, exec (.teardown false) busy = .fault f) :=
  ⟨nofun, nofun, ⟨_, rfl⟩, ⟨_, rfl⟩⟩

theorem test_witness_ReadingCommandsChangeNoState : ∃ t, exec (.regRead true .dr) busy = .next t :=
  ⟨_, rfl⟩

/-- The draw that succeeds, with and without `ALLOC_CAN_FAIL`, and the ones that fail. -/
theorem test_witness_InitBuildsTheResetState :
    busy.params.allocCanFail = false ∧ (on failing cfgN81).allocDraw = .ok ∧
    (on failing cfgN81).params.allocCanFail = true ∧
    ({ on failing cfgN81 with allocDraw := .rxFail } : State).allocDraw ≠ .ok := by decide

theorem test_witness_TeardownReleasesTheInstance :
    busy.life = .ready ∧ (off small).life = .uninit := ⟨rfl, rfl⟩

theorem test_witness_OnlyInitAndTeardownChangeLife :
    (∃ t, exec (.init true (some cfgN81)) (off small) = .next t ∧ (off small).life = .uninit ∧
      t.life = .ready) ∧
    (∃ t, exec (.teardown true) busy = .next t ∧ busy.life = .ready ∧ t.life = .uninit) :=
  ⟨⟨_, rfl, rfl, rfl⟩, ⟨_, rfl, rfl, rfl⟩⟩

theorem test_witness_ConfigurationIsImmutable :
    (∃ t, exec .txShift busy = .next t) ∧ (∀ hp cfg, Instr.txShift ≠ .init hp cfg) ∧
    (∀ hp, Instr.txShift ≠ .teardown hp) := ⟨⟨_, rfl⟩, nofun, nofun⟩

/-- The bounds of CAP. -/
theorem test_witness_BrrDistinguishesBaudRates :
    ({ Params.reference with cap := 1 } : Params).wf ∧
    ({ Params.reference with cap := 255 } : Params).wf := by decide

theorem test_witness_InertFlagsAreNeitherReadNorWritten :
    (∃ t, exec .txShift busy = .next t) ∧ (∀ hp cfg, Instr.txShift ≠ .init hp cfg) ∧
    (∀ hp, Instr.txShift ≠ .teardown hp) ∧ (∃ f, exec (.teardown false) busy = .fault f) :=
  ⟨⟨_, rfl⟩, nofun, nofun, ⟨_, rfl⟩⟩

/-- A full FIFO, and one with a single place left. -/
theorem test_witness_SendByteQueuesOneByte :
    (off small).life = .uninit ∧ busy.life = .ready ∧
    busy.txq = some [1, 2] ∧ [1, 2].length = busy.params.cap ∧
    (sending [1] (on small cfgN81)).txq = some [1] ∧ [1].length ≠ small.cap := by decide

/-- A full FIFO (count 0), a short count, and the longest payload. -/
theorem test_witness_SendBufferQueuesWhatFits :
    (off small).life = .uninit ∧ busy.life = .ready ∧ busy.txq = some [1, 2] ∧
    [1, 2].length ≤ busy.params.cap ∧ 0 = min [5].length (busy.params.cap - [1, 2].length) ∧
    1 = min [5, 6].length ((sending [1] (on small cfgN81)).params.cap - [1].length) ∧
    (List.replicate 255 (0 : Byte)).length ≤ 255 :=
  ⟨rfl, rfl, rfl, by decide, by decide, by decide,
    by simp only [List.length_replicate]; decide⟩

theorem test_witness_IsTxEmptyAnswersTxe :
    (off small).life = .uninit ∧ busy.Inv ∧ busy.life = .ready ∧ busy.txq = some [1, 2] ∧
    (on small cfgE82).Inv ∧ (on small cfgE82).txq = some [] :=
  ⟨rfl, test_busy_inv, rfl, rfl, test_on_inv, rfl⟩

/-- The last byte and one before it, without and with LOOPBACK, into an RX FIFO with room and a full one. -/
theorem test_witness_TxShiftPutsOldestByteOnLine :
    busy.life = .ready ∧ busy.txq = some (1 :: [2]) ∧
    (sending [1] (on small cfgN81)).txq = some (1 :: []) ∧ small.loopback = false ∧
    looped.loopback = true ∧ (sending [1] (on looped cfgO72)).rxq = some [] ∧ ([] : List Byte).length ≠ looped.cap ∧
    (received [3, 4] (sending [1] (on looped cfgO72))).rxq = some [3, 4] ∧
    [3, 4].length = looped.cap := by decide

theorem test_witness_DisabledLineEventsLeaveNoTrace :
    (off small).life = .uninit ∧ (on small cfgN81).txq = some [] := ⟨rfl, rfl⟩

theorem test_witness_OnlyTxShiftExtendsLineOut :
    (∃ t, exec .txShift busy = .next t) ∧ (∃ t, exec (.isTxEmpty true) busy = .next t) ∧
    busy.life = .ready ∧ busy.txq = some (1 :: [2]) := ⟨⟨_, rfl⟩, ⟨_, rfl⟩, rfl, rfl⟩

/-- Busy to Idle, and Idle to Busy. -/
theorem test_witness_TransmitterTurnsBusyAndIdleAsStated :
    (∃ t, exec .txShift (sending [1] (on small cfgN81)) = .next t ∧
      (sending [1] (on small cfgN81)).txBusy = true ∧ t.txBusy = false) ∧
    (∃ t, exec (.sendByte true 1) (on small cfgN81) = .next t ∧ (on small cfgN81).txBusy = false ∧
      t.txBusy = true) ∧
    (∀ hp cfg, Instr.txShift ≠ .init hp cfg) ∧ (∀ hp, Instr.txShift ≠ .teardown hp) ∧
    (∀ hp cfg, Instr.sendByte true 1 ≠ .init hp cfg) ∧ (∀ hp, Instr.sendByte true 1 ≠ .teardown hp) :=
  ⟨⟨_, rfl, rfl, rfl⟩, ⟨_, rfl, rfl, rfl⟩, nofun, nofun, nofun, nofun⟩

theorem test_witness_TransmittedBytesKeepTheirOrder :
    busy.txq = some [1, 2] ∧ (∃ t, exec (.sendBuffer true [5]) busy = .next t) ∧
    (∀ hp cfg, Instr.sendBuffer true [5] ≠ .init hp cfg) ∧
    (∀ hp, Instr.sendBuffer true [5] ≠ .teardown hp) := ⟨rfl, ⟨_, rfl⟩, nofun, nofun⟩

/-- Two bytes, the capacity, with 7 data bits. -/
theorem test_witness_LoopbackReturnsSentBytesInOrder :
    ∃ s : State, s.life = .ready ∧ s.txq = some [] ∧ s.rxq = some [] ∧ s.params.loopback = true ∧
      [0xC1, 0x42].length ≤ s.params.cap ∧
      s.schedule =
        [0xC1, 0x42].map (fun b : Byte => ⟨.command (0x18#8 ++ b) [], .ok⟩) ++
        List.replicate 2 ⟨.shift, .ok⟩ ++ List.replicate 2 ⟨.command 0x4800 [], .ok⟩ :=
  ⟨{ on looped cfgO72 with
      schedule :=
        [0xC1, 0x42].map (fun b : Byte => ⟨.command (0x18#8 ++ b) [], .ok⟩) ++
        List.replicate 2 ⟨.shift, .ok⟩ ++ List.replicate 2 ⟨.command 0x4800 [], .ok⟩ },
    rfl, rfl, rfl, rfl, by decide, rfl⟩

theorem test_witness_ReceiveByteTakesOldestByte :
    (off small).life = .uninit ∧ busy.life = .ready ∧ (on small cfgN81).rxq = some [] ∧
    busy.rxq = some (3 :: [4]) ∧ (received [9] (on small cfgN81)).rxq = some (9 :: []) := by decide

theorem test_witness_ReceiveBufferTakesOldestBytes :
    (off small).life = .uninit ∧ busy.life = .ready ∧ busy.rxq = some [3, 4] ∧
    0 = min (0#8).toNat [3, 4].length ∧ 1 = min (1#8).toNat [3, 4].length ∧
    2 = min (255#8).toNat [3, 4].length := by decide

theorem test_witness_IsDataReadyAnswersRxne :
    (off small).life = .uninit ∧ busy.Inv ∧ busy.life = .ready ∧ busy.rxq = some [3, 4] ∧
    (on small cfgE82).Inv ∧ (on small cfgE82).rxq = some [] :=
  ⟨rfl, test_busy_inv, rfl, rfl, test_on_inv, rfl⟩

theorem test_witness_RxFrameStoresAndLatches :
    busy.life = .ready ∧ busy.rxq = some [3, 4] ∧ [3, 4].length = busy.params.cap ∧
    (received [9] (on small cfgE82)).rxq = some [9] ∧ [9].length ≠ small.cap ∧
    (off small).life = .uninit := by decide

/-- Filling, emptying, and an overrun. -/
theorem test_witness_ReceiverFillsAndEmptiesAsStated :
    (∃ t, exec (.rxFrame false false 7) (on small cfgN81) = .next t ∧ (on small cfgN81).rxq = some [] ∧
      t.rxq = some [7]) ∧
    (∃ t, exec (.receiveBuffer true 9) busy = .next t ∧ busy.rxq = some [3, 4] ∧ t.rxq = some []) ∧
    (∃ t, exec (.rxFrame false false 7) (received [1, 2] (on small cfgN81)) = .next t ∧
      (received [1, 2] (on small cfgN81)).sr.getLsbD 5 = false ∧ t.sr.getLsbD 5 = true) ∧
    (∀ hp cfg, Instr.rxFrame false false 7 ≠ .init hp cfg) ∧
    (∀ hp, Instr.receiveBuffer true 9 ≠ .teardown hp) :=
  ⟨⟨_, rfl, rfl, rfl⟩, ⟨_, rfl, rfl, rfl⟩, ⟨_, rfl, rfl, rfl⟩, nofun, nofun⟩

theorem test_witness_GetErrorAnswersLatchedCode :
    busy.life = .ready ∧ (off small).life = .uninit ∧ busy.currentError = .overrunError := ⟨rfl, rfl, rfl⟩

theorem test_witness_ClearErrorClearsLatchAndErrorBits :
    busy.life = .ready ∧ (off small).life = .uninit ∧ ∃ t, exec (.clearError true) busy = .next t :=
  ⟨rfl, rfl, ⟨_, rfl⟩⟩

theorem test_witness_HostCommandsLatchNoError :
    (∃ t, exec (.clearError true) busy = .next t) ∧ isCommand (.clearError true) = true ∧
    (∃ t, exec .txShift busy = .next t) ∧ busy.params.loopback = false :=
  ⟨⟨_, rfl⟩, rfl, ⟨_, rfl⟩, rfl⟩

theorem test_witness_LatchedErrorsStayUntilCleared :
    (∃ t, exec (.receiveByte true) busy = .next t) ∧ busy.currentError ≠ .noError ∧
    (∀ hp, Instr.receiveByte true ≠ .clearError hp) ∧ (∀ hp cfg, Instr.receiveByte true ≠ .init hp cfg) ∧
    (∀ hp, Instr.receiveByte true ≠ .teardown hp) := ⟨⟨_, rfl⟩, nofun, nofun, nofun, nofun⟩

theorem test_witness_ErrorStateChangesNothingElse :
    (0x02#8 &&& 0xC7 = busy.sr &&& 0xC7) ∧ (∀ hp, Instr.txShift ≠ .getError hp) ∧
    (∀ hp, Instr.txShift ≠ .regRead hp .sr) ∧ (∀ hp k, Instr.txShift ≠ .testBit hp .sr k) ∧
    ∃ t, exec .txShift busy = .next t := ⟨rfl, nofun, nofun, nofun, ⟨_, rfl⟩⟩

theorem test_witness_ErrorResponsesChangeNoState :
    ∃ t, exec (.sendByte true 0) busy = .next t ∧ t.responses = busy.responses ++ [⟨0x0500, []⟩] ∧
      (0x0500#16).extractLsb' 8 8 ≠ 0x00 ∧ (0x0500#16).extractLsb' 8 8 ≠ 0x06 :=
  ⟨_, rfl, rfl, by decide, by decide⟩

theorem test_witness_EveryCommandGetsOneResponse :
    (∃ t, exec (.getError true) busy = .next t) ∧ isCommand (.getError true) = true ∧
    (∀ bits, Instr.getError true ≠ .reserved bits) ∧
    (∃ t, exec .txShift busy = .next t) ∧ isCommand .txShift = false ∧
    (∃ t, exec (.reserved 0) busy = .next t) := ⟨⟨_, rfl⟩, rfl, nofun, ⟨_, rfl⟩, rfl, ⟨_, rfl⟩⟩

/-- Line events after the last command and none, and a schedule without a command. -/
theorem test_witness_EndStateFollowsTheLastResponse :
    (∃ t, endsCleanly { on small cfgN81 with
        schedule := [⟨.shift, .ok⟩] ++ ⟨.command 0x1841 [], .ok⟩ :: [⟨.frame 0x041, .ok⟩] } t) ∧
    (∃ t, endsCleanly { busy with schedule := [] ++ ⟨.command 0x3800 [], .ok⟩ :: [] } t) ∧
    (∀ e ∈ [(⟨.frame 0x041, .ok⟩ : Event), ⟨.shift, .ok⟩],
      e.input = .shift ∨ ∃ f, e.input = .frame f) :=
  ⟨⟨_, rfl, rfl⟩, ⟨_, rfl, rfl⟩, by simp⟩

end Sys2Proof.Tests
end

section
/-! SUPPORT. What no instruction writes, and so no step: the schedule beyond the event taken (R54) and the
parameters (R7). -/

namespace Sys2Proof.Machine

open Sys2Proof

variable {i : Instr} {s t : State}

/-- No meaning takes or adds an event: only `step` moves the schedule on (R54; log 2). -/
theorem Effect.schedule_eq (h : Effect s i t) : t.schedule = s.schedule := by
  cases h <;> simp

/-- No meaning writes a parameter (R7; log 3). -/
theorem Effect.params_eq (h : Effect s i t) : t.params = s.params := by
  cases h <;> simp

/-- Idle, running an event or refusing it, a step moves the schedule on by one event. -/
theorem step_schedule (h : step s = .next t) : t.schedule = s.schedule.tail := by
  obtain ⟨hs, rfl⟩ | ⟨e, rest, i, hs, -, hx⟩ | ⟨e, rest, r, hs, -, rfl⟩ := step_next h
  · simp [hs]
  · simp [(exec_effect hx).schedule_eq, hs]
  · simp [hs]

/-- Idle, running an event or refusing it, a step writes no parameter. -/
theorem step_params (h : step s = .next t) : t.params = s.params := by
  obtain ⟨-, rfl⟩ | ⟨e, rest, i, -, -, hx⟩ | ⟨e, rest, r, -, -, rfl⟩ := step_next h
  · rfl
  · exact (exec_effect hx).params_eq
  · rfl

/-- Settles O8: both halves hold of each instruction's effects, hence of each way a step can go on. -/
theorem stepTakesOneEventAndKeepsParameters : Obligations.StepTakesOneEventAndKeepsParameters :=
  fun _ _ h => ⟨step_schedule h, step_params h⟩

end Sys2Proof.Machine
end

section
/-! SUPPORT. One bit of SR under a mask; the receive procedure by what the RX FIFO holds (R99); and a drain as the
byte sent, with its flags, before the receive of LOOPBACK (R92, R101). -/

namespace Sys2Proof.Machine

open Sys2Proof

section masks
variable {v m : Byte} {k : BitIndex}

theorem bitOf_and_kept (hm : bitOf m k = true) : bitOf (v &&& m) k = bitOf v k := by
  simp_all [bitOf]

theorem bitOf_and_cleared (hm : bitOf m k = false) : bitOf (v &&& m) k = false := by
  simp_all [bitOf]

theorem bitOf_or_kept (hm : bitOf m k = false) : bitOf (v ||| m) k = bitOf v k := by
  simp_all [bitOf]

theorem bitOf_or_set (hm : bitOf m k = true) : bitOf (v ||| m) k = true := by
  simp_all [bitOf]

end masks

variable {s : State}

/-- Storing a byte writes the RX FIFO as taking some does, but keeps DR (R96, R99). -/
theorem taken_dr_eq_setFlag {q : List Byte} (hq : q ≠ []) :
    s.taken s.dr q = ({ s with rxq := some q } : State).setFlag srRXNE := by
  cases q with
  | nil => exact absurd rfl hq
  | cons b q => rfl

theorem receive_of_full {q : List Byte} (hrx : s.rxq = some q) (hf : q.length = s.params.cap)
    (v : Byte) (pe fe : Bool) : receive v pe fe s = s.latch .overrun := by
  simp [receive, hrx, hf]

theorem receive_of_room {q : List Byte} (hrx : s.rxq = some q) (hf : q.length ≠ s.params.cap)
    (v : Byte) (pe fe : Bool) : receive v pe fe s = storeFrame q v pe fe s := by
  simp [receive, hrx, hf]

/-- The flags of a FIFO drained do not matter to the receive procedure, nor it to them. -/
theorem receive_endTransfer (v : Byte) (pe fe : Bool) (s : State) :
    (receive v pe fe s).endTransfer = receive v pe fe s.endTransfer := by
  obtain ⟨hrx, e⟩ | ⟨q, hrx, hq, e⟩ | ⟨q, hrx, hq, e⟩ := receive_cases v pe fe s <;> rw [e]
  · simp [receive, hrx]
  · rw [receive_of_full (s := s.endTransfer) hrx hq]
    ext1 <;> simp [State.latch_sr, State.latch_currentError, hrx]
    ac_rfl
  · have parity : parityFault pe s.endTransfer = parityFault pe s := rfl
    rw [receive_of_room (s := s.endTransfer) hrx hq, storeFrame_eq, parity]
    ext1 <;> simp
    ac_rfl

/-- The block once a byte has left the TX FIFO and the line event has shown it (R92). -/
def State.drained (b : Byte) (q : List Byte) (s : State) : State :=
  if q = [] then (s.sent b q).endTransfer else s.sent b q

/-- A drain is the byte sent and the flags shown, and then the receive of LOOPBACK (R92, R101). -/
theorem drain_eq_receive_drained (b : Byte) (q : List Byte) (s : State) :
    drain b q s =
      if s.params.loopback then receive (b &&& dataMask s.cfg.dataBits) false false (s.drained b q)
      else s.drained b q := by
  rw [drain_eq, State.drained]
  split <;> split <;> simp [receive_endTransfer]

end Sys2Proof.Machine
end

section
/-! SUPPORT. BRR and the baud rates (R33), and the parameters at reset (R7). -/

namespace Sys2Proof

open Sys2Proof.Machine

theorem decodeBaud_encodeBaud (b : BaudRate) : decodeBaud (encodeBaud b) = some b := by
  cases b <;> rfl

theorem encodeBaud_injective : Function.Injective encodeBaud := fun a b h =>
  Option.some.inj (by rw [← decodeBaud_encodeBaud a, h, decodeBaud_encodeBaud])

/-- `BRR_ENCODE` looks the baud rate up at its place in the table, the BAUD field of R63. -/
theorem getElem?_encodeBaud (t : BrrTable) (b : BaudRate) :
    [t.at9600, t.at19200, t.at38400, t.at57600, t.at115200][(encodeBaud b).toNat]? =
      some (brrEncode t b) := by
  cases b <;> rfl

theorem brrEncode_injective {t : BrrTable} (h : t.injective) : Function.Injective (brrEncode t) := by
  intro a b hab
  obtain ⟨in_table, -⟩ := List.getElem?_eq_some_iff.mp (getElem?_encodeBaud t a)
  have same_place : (encodeBaud a).toNat = (encodeBaud b).toNat :=
    (List.getElem?_inj in_table h).mp (by rw [getElem?_encodeBaud, getElem?_encodeBaud, hab])
  exact encodeBaud_injective (BitVec.eq_of_toNat_eq same_place)

/-- A permutation of the bytes keeps the spec's default divisors distinct, so the parameters at reset are
admitted whichever it is (R7, R33; log 3). -/
theorem Config.params_wf : Config.params.wf := by
  refine ⟨by decide, by decide, ?_⟩
  have default_distinct : BrrTable.default.injective := by decide
  exact List.Nodup.map Config.brrPermutation.injective default_distinct

/-- Settles O25: an admitted table has five distinct bytes, and the default's are the divisors. -/
theorem brrDistinguishesBaudRates : Obligations.BrrDistinguishesBaudRates :=
  ⟨fun _ ⟨_, _, h⟩ => brrEncode_injective h, by decide, rfl, rfl, rfl, rfl, rfl⟩

end Sys2Proof
end

section
/-! SUPPORT. The invariant of the block (R17, R41 to R43): what it says of SR against each mask, that every
update of a Ready block keeps it, and so every step. -/

namespace Sys2Proof.Machine

open Sys2Proof

variable {s : State} {tx rx : List Byte}

/-! ### What it says of SR -/

section masks
variable {v m : Byte} {e : LatchedError}

/-- Clearing other bits of SR keeps R43 (b). -/
theorem ErrorInv.and (h : ErrorInv v e) (hpe : bitOf m srPE = true) (hfe : bitOf m srFE = true)
    (hore : bitOf m srORE = true) : ErrorInv (v &&& m) e where
  some_bit := by rw [bitOf_and_kept hpe, bitOf_and_kept hfe, bitOf_and_kept hore, h.some_bit]
  parity he := (bitOf_and_kept hpe).trans (h.parity he)
  framing he := (bitOf_and_kept hfe).trans (h.framing he)
  overrun he := (bitOf_and_kept hore).trans (h.overrun he)

/-- Setting other bits of SR keeps R43 (b). -/
theorem ErrorInv.or (h : ErrorInv v e) (hpe : bitOf m srPE = false) (hfe : bitOf m srFE = false)
    (hore : bitOf m srORE = false) : ErrorInv (v ||| m) e where
  some_bit := by rw [bitOf_or_kept hpe, bitOf_or_kept hfe, bitOf_or_kept hore, h.some_bit]
  parity he := (bitOf_or_kept hpe).trans (h.parity he)
  framing he := (bitOf_or_kept hfe).trans (h.framing he)
  overrun he := (bitOf_or_kept hore).trans (h.overrun he)

theorem ErrorInv.clear (hpe : bitOf v srPE = false) (hfe : bitOf v srFE = false)
    (hore : bitOf v srORE = false) : ErrorInv v .noError :=
  ⟨by simp [hpe, hfe, hore], nofun, nofun, nofun⟩

theorem ErrorInv.parity_set (h : bitOf v srPE = true) : ErrorInv v .parityError :=
  ⟨by simp [h], fun _ => h, nofun, nofun⟩

theorem ErrorInv.framing_set (h : bitOf v srFE = true) : ErrorInv v .framingError :=
  ⟨by simp [h], nofun, fun _ => h, nofun⟩

theorem ErrorInv.overrun_set (h : bitOf v srORE = true) : ErrorInv v .overrunError :=
  ⟨by simp [h], nofun, nofun, fun _ => h⟩

theorem reserved_bits_and (h : v &&& 0xC0 = 0) : v &&& m &&& 0xC0 = 0 := by
  calc v &&& m &&& 0xC0 = v &&& 0xC0 &&& m := by ac_rfl
    _ = 0 := by rw [h]; exact BitVec.zero_and

theorem reserved_bits_or (h : v &&& 0xC0 = 0) (hm : m &&& 0xC0 = 0) : (v ||| m) &&& 0xC0 = 0 := by
  rw [BitVec.and_or_distrib_right, h, hm]; rfl

end masks

/-! ### Fields the invariant does not speak of -/

theorem ReadyInv.update_unseen (h : ReadyInv s tx rx) (dr cr1 : Byte) (line : List Byte)
    (refusals : List DecodeRefusal) (responses : List Response) (events : List Event) (draw : Alloc) :
    ReadyInv { s with
      dr := dr, cr1 := cr1, lineOut := line, refusals := refusals, responses := responses
      schedule := events, allocDraw := draw } tx rx :=
  { h with }

theorem State.Inv.update_unseen (h : s.Inv) (dr cr1 : Byte) (line : List Byte)
    (refusals : List DecodeRefusal) (responses : List Response) (events : List Event) (draw : Alloc) :
    State.Inv { s with
      dr := dr, cr1 := cr1, lineOut := line, refusals := refusals, responses := responses
      schedule := events, allocDraw := draw } where
  params := h.params
  uninit := h.uninit
  ready hl := by
    obtain ⟨tx, rx, htx, hrx, hr⟩ := h.ready hl
    exact ⟨tx, rx, htx, hrx, hr.update_unseen ..⟩

theorem State.Inv.respond (h : s.Inv) (r : Response) : (s.respond r).Inv := h.update_unseen ..

theorem State.Inv.markRefused (h : s.Inv) (r : DecodeRefusal) : (s.markRefused r).Inv :=
  h.update_unseen ..

theorem State.Inv.taking (h : s.Inv) (e : Event) (rest : List Event) : (s.taking e rest).Inv :=
  h.update_unseen ..

theorem State.Inv.put_cr1 (h : s.Inv) (v : Byte) : State.Inv { s with cr1 := v } :=
  h.update_unseen ..

/-! ### Uninit and Ready states that meet it -/

theorem State.Inv.of_uninit (hp : s.params.wf) (hl : s.life = .uninit) (htx : s.txq = none)
    (hrx : s.rxq = none) : s.Inv where
  params := hp
  uninit _ := ⟨htx, hrx⟩
  ready h := by simp [hl] at h

theorem State.Inv.of_ready (hp : s.params.wf) (hl : s.life = .ready) (htx : s.txq = some tx)
    (hrx : s.rxq = some rx) (h : ReadyInv s tx rx) : s.Inv where
  params := hp
  uninit hu := by simp [hl] at hu
  ready _ := ⟨tx, rx, htx, hrx, h⟩

/-- A Ready block's invariant, for the TX FIFO one has in hand. -/
theorem State.Inv.ready_tx (h : s.Inv) (hl : s.life = .ready) (htx : s.txq = some tx) :
    ∃ rx, s.rxq = some rx ∧ ReadyInv s tx rx := by
  obtain ⟨tx', rx, htx', hrx, hr⟩ := h.ready hl
  obtain rfl : tx' = tx := by simpa [htx'] using htx
  exact ⟨rx, hrx, hr⟩

/-- A Ready block's invariant, for the RX FIFO one has in hand. -/
theorem State.Inv.ready_rx (h : s.Inv) (hl : s.life = .ready) (hrx : s.rxq = some rx) :
    ∃ tx, s.txq = some tx ∧ ReadyInv s tx rx := by
  obtain ⟨tx, rx', htx, hrx', hr⟩ := h.ready hl
  obtain rfl : rx' = rx := by simpa [hrx'] using hrx
  exact ⟨tx, htx, hr⟩

/-! ### Updates of a Ready block -/

theorem ReadyInv.initialised (s : State) (c : UartConfig) : ReadyInv (s.initialised c) [] [] where
  tx_bound := Nat.zero_le _
  rx_bound := Nat.zero_le _
  busy := rfl
  txe := by rw [State.initialised_sr]; rfl
  rxne := by rw [State.initialised_sr]; rfl
  cr2 := rfl
  brr := rfl
  error := by rw [State.initialised_sr]; exact .clear rfl rfl rfl
  tc _ := by rw [State.initialised_sr]; rfl
  sr_reserved := by rw [State.initialised_sr]; rfl
  rx_busy := rfl
  tx_interrupt := rfl
  rx_interrupt := rfl
  error_interrupt := rfl

/-- Queueing bytes makes the TX FIFO nonempty and shows it (R41, R89, R90). -/
theorem ReadyInv.queued (h : ReadyInv s tx rx) {q : List Byte} (hne : q ≠ [])
    (hb : q.length ≤ s.params.cap) (b : Byte) : ReadyInv (s.queued q b) q rx :=
  { h with
    tx_bound := hb
    busy := by simp [hne]
    txe := by rw [State.queued_sr, bitOf_and_cleared rfl]; simp [hne]
    rxne := by rw [State.queued_sr, bitOf_and_kept rfl, h.rxne]
    error := by rw [State.queued_sr]; exact h.error.and rfl rfl rfl
    tc := by rw [State.queued_sr, bitOf_and_cleared rfl]; exact nofun
    sr_reserved := by rw [State.queued_sr]; exact reserved_bits_and h.sr_reserved }

/-- An RX FIFO written with RXNE as it says: bytes taken (R42, R96, R97), or one stored (R99). -/
theorem ReadyInv.taken (h : ReadyInv s tx rx) {q : List Byte} (hb : q.length ≤ s.params.cap)
    (b : Byte) : ReadyInv (s.taken b q) tx q := by
  cases q with
  | nil =>
    have hsr : (s.taken b []).sr = s.sr &&& 0xFD := rfl
    exact
      { h with
        rx_bound := hb
        txe := by rw [hsr, bitOf_and_kept rfl, h.txe]
        rxne := by rw [hsr, bitOf_and_cleared rfl]; rfl
        error := by rw [hsr]; exact h.error.and rfl rfl rfl
        tc := by rw [hsr, bitOf_and_kept rfl, bitOf_and_kept rfl]; exact h.tc
        sr_reserved := by rw [hsr]; exact reserved_bits_and h.sr_reserved }
  | cons c q =>
    have hsr : (s.taken b (c :: q)).sr = s.sr ||| 0x02 := rfl
    exact
      { h with
        rx_bound := hb
        txe := by rw [hsr, bitOf_or_kept rfl, h.txe]
        rxne := by rw [hsr, bitOf_or_set rfl]; rfl
        error := by rw [hsr]; exact h.error.or rfl rfl rfl
        tc := by rw [hsr, bitOf_or_kept rfl, bitOf_or_kept rfl]; exact h.tc
        sr_reserved := by rw [hsr]; exact reserved_bits_or h.sr_reserved rfl }

/-- A write of the error state alone, SR bits 3 to 5 and `current_error` (R105, R106). -/
theorem ReadyInv.put_error (h : ReadyInv s tx rx) {v : Byte} {e : LatchedError}
    (htxe : bitOf v srTXE = bitOf s.sr srTXE) (hrxne : bitOf v srRXNE = bitOf s.sr srRXNE)
    (htc : bitOf v srTC = bitOf s.sr srTC) (hres : v &&& 0xC0 = 0) (he : ErrorInv v e) :
    ReadyInv { s with sr := v, currentError := e } tx rx :=
  { h with
    txe := htxe.trans h.txe
    rxne := hrxne.trans h.rxne
    error := he
    tc := by rw [htxe, htc]; exact h.tc
    sr_reserved := hres }

/-- CLEAR_ERROR clears the three error bits with the latch (R105). -/
theorem ReadyInv.clearLatch (h : ReadyInv s tx rx) : ReadyInv s.clearLatch tx rx := by
  have update : s.clearLatch = { s with sr := s.sr &&& 0xC7, currentError := .noError } := by
    ext <;> simp
  rw [update]
  exact h.put_error (bitOf_and_kept rfl) (bitOf_and_kept rfl) (bitOf_and_kept rfl)
    (reserved_bits_and h.sr_reserved)
    (.clear (bitOf_and_cleared rfl) (bitOf_and_cleared rfl) (bitOf_and_cleared rfl))

/-- A latch sets the SR bit of the error it leaves in `current_error` (R106). -/
theorem ReadyInv.latch (h : ReadyInv s tx rx) (k : LineFault) : ReadyInv (s.latch k) tx rx := by
  cases k <;>
    refine h.put_error (bitOf_or_kept rfl) (bitOf_or_kept rfl) (bitOf_or_kept rfl)
      (reserved_bits_or h.sr_reserved rfl) ?_
  case parity => exact .parity_set (bitOf_or_set rfl)
  case framing => exact .framing_set (bitOf_or_set rfl)
  case overrun => exact .overrun_set (bitOf_or_set rfl)

/-- Storing a frame's byte in an RX FIFO with room, RXNE set, and then the latches (R99). -/
theorem ReadyInv.storeFrame (h : ReadyInv s tx rx) (hroom : rx.length ≠ s.params.cap) (v : Byte)
    (pe fe : Bool) :
    ReadyInv (storeFrame rx v pe fe s) tx (rx ++ [v &&& dataMask s.cfg.dataBits]) := by
  have hbound := h.rx_bound
  have stored := h.taken (q := rx ++ [v &&& dataMask s.cfg.dataBits]) (by simp; omega) s.dr
  rw [taken_dr_eq_setFlag (by simp)] at stored
  unfold Machine.storeFrame
  split <;> split
  · exact (stored.latch .parity).latch .framing
  · exact stored.latch .parity
  · exact stored.latch .framing
  · exact stored

/-- The receive procedure stores a byte where there is room, and latches an overrun elsewhere (R99). -/
theorem ReadyInv.receive (h : ReadyInv s tx rx) (hrx : s.rxq = some rx) (v : Byte) (pe fe : Bool) :
    ∃ rx', (receive v pe fe s).rxq = some rx' ∧ ReadyInv (receive v pe fe s) tx rx' := by
  by_cases hf : rx.length = s.params.cap
  · rw [receive_of_full hrx hf]
    exact ⟨rx, by simpa using hrx, h.latch .overrun⟩
  · rw [receive_of_room hrx hf]
    exact ⟨_, by rw [storeFrame_eq], h.storeFrame hf v pe fe⟩

/-- A byte sent leaves TXE and `tx_busy` as the rest of the TX FIFO says (R41, R92). -/
theorem ReadyInv.drained {b : Byte} {q : List Byte} (h : ReadyInv s (b :: q) rx) :
    ReadyInv (s.drained b q) q rx := by
  unfold State.drained
  have hb : q.length ≤ s.params.cap := (Nat.le_succ _).trans h.tx_bound
  split
  next hq =>
    subst hq
    have hsr : (s.sent b []).endTransfer.sr = s.sr ||| 0x05 := by simp
    exact
      { h with
        tx_bound := hb
        busy := rfl
        txe := by rw [hsr, bitOf_or_set rfl]; rfl
        rxne := by rw [hsr, bitOf_or_kept rfl, h.rxne]
        error := by rw [hsr]; exact h.error.or rfl rfl rfl
        tc := by rw [hsr, bitOf_or_set (k := srTXE) rfl]; exact fun _ => rfl
        sr_reserved := by rw [hsr]; exact reserved_bits_or h.sr_reserved rfl }
  next hq =>
    exact
      { h with
        tx_bound := hb
        busy := by simp [h.busy, hq]
        txe := by simp [h.txe, hq] }

/-- A drain keeps the invariant of a Ready block, with LOOPBACK and without (R92). -/
theorem ReadyInv.drain {b : Byte} {q : List Byte} (h : ReadyInv s (b :: q) rx)
    (hrx : s.rxq = some rx) :
    ∃ rx', (drain b q s).rxq = some rx' ∧ ReadyInv (drain b q s) q rx' := by
  have hrx' : (s.drained b q).rxq = some rx := by unfold State.drained; split <;> simp [hrx]
  rw [drain_eq_receive_drained]
  split
  · exact h.drained.receive hrx' _ false false
  · exact ⟨rx, hrx', h.drained⟩

/-! ### Instructions and steps -/

theorem State.Inv.initialised (h : s.Inv) (c : UartConfig) : (s.initialised c).Inv :=
  .of_ready h.params rfl rfl rfl (.initialised s c)

theorem State.Inv.release (h : s.Inv) : s.release.Inv := .of_uninit h.params rfl rfl rfl

/-- SEND_BYTE and SEND_BUFFER queue at least one byte, within CAP. -/
theorem State.Inv.queued {q : List Byte} (h : s.Inv) (hl : s.life = .ready) (htx : s.txq = some tx)
    (hne : q ≠ []) (hb : q.length ≤ s.params.cap) (b : Byte) : (s.queued q b).Inv := by
  obtain ⟨rx, hrx, hr⟩ := h.ready_tx hl htx
  exact .of_ready h.params hl rfl hrx (hr.queued hne hb b)

/-- RECEIVE_BYTE and RECEIVE_BUFFER leave no more bytes than there were. -/
theorem State.Inv.taken {q : List Byte} (h : s.Inv) (hl : s.life = .ready) (hrx : s.rxq = some rx)
    (hb : q.length ≤ rx.length) (b : Byte) : (s.taken b q).Inv := by
  obtain ⟨tx, htx, hr⟩ := h.ready_rx hl hrx
  exact .of_ready (by simpa using h.params) (by simpa using hl) (by simpa using htx) (by simp)
    (hr.taken (hb.trans hr.rx_bound) b)

theorem State.Inv.clearLatch (h : s.Inv) (hl : s.life = .ready) : s.clearLatch.Inv := by
  obtain ⟨tx, rx, htx, hrx, hr⟩ := h.ready hl
  exact .of_ready h.params hl htx hrx hr.clearLatch

theorem State.Inv.receive (h : s.Inv) (hl : s.life = .ready) (v : Byte) (pe fe : Bool) :
    (receive v pe fe s).Inv := by
  obtain ⟨tx, rx, htx, hrx, hr⟩ := h.ready hl
  obtain ⟨rx', hrx', hr'⟩ := hr.receive hrx v pe fe
  exact .of_ready (by simpa using h.params) (by simpa using hl) (by simpa using htx) hrx' hr'

theorem State.Inv.drain {b : Byte} {q : List Byte} (h : s.Inv) (hl : s.life = .ready)
    (htx : s.txq = some (b :: q)) : (drain b q s).Inv := by
  obtain ⟨rx, hrx, hr⟩ := h.ready_tx hl htx
  obtain ⟨rx', hrx', hr'⟩ := hr.drain hrx
  exact .of_ready (by simpa using h.params) (by simpa using hl) (by simp) hrx' hr'

/-- SEND_BUFFER accepts no more than fits, and accepted bytes are in the FIFO (R90). -/
theorem State.Inv.queued_pushWhileRoom {p : List Byte} {b : Byte} (h : s.Inv) (hl : s.life = .ready)
    (htx : s.txq = some tx) (hb : (pushWhileRoom s.params.cap tx p).2.getLast? = some b) :
    (s.queued (pushWhileRoom s.params.cap tx p).1 b).Inv := by
  obtain ⟨rx, -, hr⟩ := h.ready_tx hl htx
  have hbound := hr.tx_bound
  rw [pushWhileRoom_eq _ _ _ hbound] at hb ⊢
  have hne : p.take (s.params.cap - tx.length) ≠ [] := by
    intro hnil
    simp [hnil] at hb
  exact h.queued hl htx (by simp [hne]) (by simp; omega) b

/-- Every instruction that goes on keeps the invariant. -/
theorem Effect.inv {i : Instr} {t : State} (h : Effect s i t) (hs : s.Inv) : t.Inv := by
  cases h
  case initOk c _ => exact (hs.initialised c).respond _
  case initFail => exact hs.release.respond _
  case sendByteOk b q hl hq hroom =>
    obtain ⟨rx, -, hr⟩ := hs.ready_tx hl hq
    have hbound := hr.tx_bound
    exact (hs.queued hl hq (by simp) (by simp; omega) b).respond _
  case sendBufferSome p q b hl hq hb => exact (hs.queued_pushWhileRoom hl hq hb).respond _
  case receiveByteOk b q hl hq => exact (hs.taken hl hq (by simp) b).respond _
  case receiveBufferSome m q b hl hq hb => exact (hs.taken hl hq (by simp) b).respond _
  case clearError hl => exact (hs.clearLatch hl).respond _
  case setBit => exact (hs.put_cr1 _).respond _
  case clearBit => exact (hs.put_cr1 _).respond _
  case teardown => exact hs.release.respond _
  case rxFrame hl => exact hs.receive hl _ _ _
  case txShift hl hq => exact hs.drain hl hq
  case reserved => exact hs.markRefused _
  case rxFrameOff => exact hs
  case txShiftOff => exact hs
  -- The others only answer.
  all_goals exact hs.respond _

/-- Settles O3: idle, running an event or refusing it, a step keeps the invariant. -/
theorem stepKeepsInvariant : Obligations.StepKeepsInvariant := by
  intro s t hs h
  obtain ⟨-, rfl⟩ | ⟨e, rest, i, -, -, hx⟩ | ⟨e, rest, r, -, -, rfl⟩ := step_next h
  · exact hs
  · exact (exec_effect hx).inv (hs.taking e rest)
  · exact (hs.taking e rest).markRefused r

end Sys2Proof.Machine
end

section
/-! SUPPORT. Where the invariant holds: at power-on and at reset (R126, R44), and so along every run; and what a
Ready state that meets it shows of its FIFOs (R41, R42). -/

namespace Sys2Proof.Machine

open Sys2Proof

variable {s : State} {tx rx : List Byte}

/-- R41, first equation. An empty FIFO is not full because `CAP >= 1`. -/
theorem ReadyInv.txe_eq_idle_and_room (h : ReadyInv s tx rx) (hcap : 1 ≤ s.params.cap) :
    bitOf s.sr srTXE = (!s.txBusy && decide (tx.length ≠ s.params.cap)) := by
  rw [h.txe, h.busy]
  cases tx with
  | nil => simp; omega
  | cons b tx => simp

/-- Settles O5: the invariant says that TXE and `tx_busy` show whether the TX FIFO is empty. -/
theorem txeShowsIdleAndRoom : Obligations.TxeShowsIdleAndRoom := by
  intro s q hs hl hq
  obtain ⟨rx, -, hr⟩ := hs.ready_tx hl hq
  obtain ⟨hcap, -, -⟩ := hs.params
  exact hr.txe_eq_idle_and_room hcap

theorem State.Inv.powerOn {p : Params} (hp : p.wf) (draw : Alloc) : (State.powerOn p draw).Inv :=
  .of_uninit hp rfl rfl rfl

/-- Settles O2: the parameters at reset are admitted, and the block is Uninit without a FIFO. -/
theorem resetMeetsInvariant : Obligations.ResetMeetsInvariant := .powerOn Config.params_wf _

/-- What a run keeps: the invariant, and the parameters it began with. -/
theorem run_keeps_inv_and_params {k : Nat} {s t : State} (hs : s.Inv)
    (h : Host.Core.run Sys2Proof.core k s = .next t) : t.Inv ∧ t.params = s.params :=
  run_keeps (P := fun u => u.Inv ∧ u.params = s.params)
    (fun u v ⟨hu, hp⟩ huv => ⟨stepKeepsInvariant u v hu huv, (step_params huv).trans hp⟩) k s t
    ⟨hs, rfl⟩ h

/-- Settles O4: the run keeps the invariant from power-on, and its equations for a Ready state are these. -/
theorem reachedReadyStatesShowTheirFifos : Obligations.ReachedReadyStatesShowTheirFifos := by
  intro p d events k t hp h
  have start : State.Inv { State.powerOn p d with schedule := events } :=
    (State.Inv.powerOn hp d).update_unseen ..
  obtain ⟨ht, hparams⟩ := run_keeps_inv_and_params start h
  refine ⟨ht, fun hl => ?_⟩
  obtain ⟨tx, rx, htx, hrx, hr⟩ := ht.ready hl
  obtain ⟨hcap, -, -⟩ := ht.params
  have hcap_eq : t.params.cap = p.cap := congrArg Params.cap hparams
  refine ⟨tx, rx, htx, hrx, ?_, ?_, ?_, ?_⟩
  · exact hcap_eq ▸ hr.txe_eq_idle_and_room hcap
  · rw [hr.busy]; cases tx <;> rfl
  · exact hr.txe.trans (by cases tx <;> rfl)
  · exact hr.rxne.trans (by cases rx <;> rfl)

end Sys2Proof.Machine
end

section
/-! SUPPORT. What the instructions leave as it was, and which of them change it: the lifecycle (R17), the line
trace (R40), and the errors (R25 to R27, R108). -/

namespace Sys2Proof.Machine

open Sys2Proof

variable {i : Instr} {s t : State}

/-! ### The lifecycle -/

theorem drawAlloc_eq_ok_iff :
    drawAlloc s = .ok ↔ s.params.allocCanFail = false ∨ s.allocDraw = .ok := by
  cases h : s.params.allocCanFail <;> simp [drawAlloc, h]

/-- Only INIT's draw and TEARDOWN write the lifecycle state. -/
theorem Effect.life_cases (h : Effect s i t) :
    t.life = s.life ∨
    (∃ c, i = .init true (some c) ∧ drawAlloc s = .ok ∧ t.life = .ready) ∨
    (∃ c, i = .init true (some c) ∧ drawAlloc s ≠ .ok ∧ t.life = .uninit) ∨
    (i = .teardown true ∧ t.life = .uninit) := by
  cases h
  case initOk c hd => exact .inr (.inl ⟨c, rfl, hd, rfl⟩)
  case initFail c hd => exact .inr (.inr (.inl ⟨c, rfl, hd, rfl⟩))
  case teardown => exact .inr (.inr (.inr ⟨rfl, rfl⟩))
  all_goals exact .inl (by simp)

/-- Settles O23: of the ways the lifecycle state is written, the change picks its own. -/
theorem onlyInitAndTeardownChangeLife : Obligations.OnlyInitAndTeardownChangeLife := by
  intro i s t h
  obtain heq | ⟨c, rfl, hd, ht⟩ | ⟨c, rfl, hd, ht⟩ | ⟨rfl, ht⟩ := (exec_effect h).life_cases
  · exact ⟨fun hs ht => by simp [heq, hs] at ht, fun hs ht => by simp [heq, hs] at ht⟩
  · exact ⟨fun _ _ => ⟨c, rfl, drawAlloc_eq_ok_iff.mp hd⟩, by simp [ht]⟩
  · rw [ne_eq, drawAlloc_eq_ok_iff, not_or, Bool.not_eq_false] at hd
    exact ⟨by simp [ht], fun _ _ => .inr ⟨c, rfl, hd⟩⟩
  · exact ⟨by simp [ht], fun _ _ => .inl rfl⟩

/-! ### The line trace -/

theorem Effect.lineOut_eq (h : Effect s i t) (hi : i ≠ .txShift) : t.lineOut = s.lineOut := by
  cases h
  case txShift => exact absurd rfl hi
  case txShiftOff => exact absurd rfl hi
  all_goals simp

/-- Settles O32: every other instruction keeps the line trace, and an enabled TX_SHIFT is a drain. -/
theorem onlyTxShiftExtendsLineOut : Obligations.OnlyTxShiftExtendsLineOut := by
  intro i s t h
  refine ⟨(exec_effect h).lineOut_eq, ?_⟩
  rintro rfl hl b q hq
  have hdrain : t = drain b q s := by
    have := (Effect.txShift b q hl hq).exec
    simpa [h] using this
  exact ⟨_, by rw [hdrain, drain_lineOut]⟩

/-! ### Errors stay -/

/-- The error bits set in `s` are set in `t`, and an error latched in `s` has one latched in `t`. -/
structure KeepsErrors (s t : State) : Prop where
  bits : ∀ k, bitOf 0x38 k = true → bitOf s.sr k = true → bitOf t.sr k = true
  latched : s.currentError ≠ .noError → t.currentError ≠ .noError

theorem KeepsErrors.trans {u : State} (h : KeepsErrors s t) (h' : KeepsErrors t u) : KeepsErrors s u where
  bits k hk hs := h'.bits k hk (h.bits k hk hs)
  latched hs := h'.latched (h.latched hs)

theorem KeepsErrors.of_eq (hsr : t.sr = s.sr) (he : t.currentError = s.currentError) : KeepsErrors s t where
  bits _ _ hs := hsr ▸ hs
  latched hs := he ▸ hs

/-- Setting bits of SR keeps the error bits. -/
theorem KeepsErrors.of_or {m : Byte} (hsr : t.sr = s.sr ||| m)
    (he : s.currentError ≠ .noError → t.currentError ≠ .noError) : KeepsErrors s t where
  bits k _ hs := by rw [hsr]; simp_all [bitOf]
  latched := he

/-- Clearing bits of SR that are no error bits keeps the error bits. -/
theorem KeepsErrors.of_and {m : Byte} (hsr : t.sr = s.sr &&& m) (hm : m &&& 0x38 = 0x38)
    (he : t.currentError = s.currentError) : KeepsErrors s t where
  bits k hk hs := by
    have hk' : bitOf (m &&& 0x38) k = true := hm.symm ▸ hk
    obtain ⟨hmk, -⟩ : bitOf m k = true ∧ bitOf 0x38 k = true := by simpa [bitOf] using hk'
    rw [hsr, bitOf_and_kept hmk, hs]
  latched hs := he ▸ hs

theorem keepsErrors_receive (v : Byte) (pe fe : Bool) (s : State) : KeepsErrors s (receive v pe fe s) := by
  obtain ⟨-, e⟩ | ⟨q, -, -, e⟩ | ⟨q, -, -, e⟩ := receive_cases v pe fe s <;> rw [e]
  · exact .of_eq rfl rfl
  · exact .of_or rfl fun _ => nofun
  · refine .of_or ((BitVec.or_assoc ..).trans (BitVec.or_assoc ..)) fun hs => ?_
    simp only; split
    · nofun
    · split
      · nofun
      · exact hs

theorem keepsErrors_drain (b : Byte) (q : List Byte) (s : State) : KeepsErrors s (drain b q s) := by
  have drained : KeepsErrors s (s.drained b q) := by
    unfold State.drained; split
    · exact .of_or (State.endTransfer_sr_mask _) id
    · exact .of_eq rfl rfl
  rw [drain_eq_receive_drained]; split
  · exact drained.trans (keepsErrors_receive ..)
  · exact drained

theorem keepsErrors_taken (b : Byte) (q : List Byte) (s : State) : KeepsErrors s (s.taken b q) := by
  cases q with
  | nil => exact .of_and (m := 0xFD) rfl rfl rfl
  | cons c q => exact .of_or (m := 0x02) rfl id

theorem Effect.keepsErrors (h : Effect s i t) (hc : ∀ hp, i ≠ .clearError hp)
    (hi : ∀ hp cfg, i ≠ .init hp cfg) (ht : ∀ hp, i ≠ .teardown hp) : KeepsErrors s t := by
  cases h
  case initNull => exact absurd rfl (hi _ _)
  case initOk => exact absurd rfl (hi _ _)
  case initFail => exact absurd rfl (hi _ _)
  case clearError => exact absurd rfl (hc _)
  case teardown => exact absurd rfl (ht _)
  case sendByteOk => exact .of_and (State.queued_sr ..) rfl rfl
  case sendBufferSome => exact .of_and (State.queued_sr ..) rfl rfl
  case receiveByteOk => exact (keepsErrors_taken ..).trans (.of_eq rfl rfl)
  case receiveBufferSome => exact (keepsErrors_taken ..).trans (.of_eq rfl rfl)
  case rxFrame => exact keepsErrors_receive ..
  case txShift => exact keepsErrors_drain ..
  -- The others write neither SR nor `current_error`.
  all_goals exact .of_eq rfl rfl

/-- The bits a mask says are kept, as one word. -/
theorem or_not_and_eq_of_bits_kept {v w m : Byte}
    (h : ∀ k, bitOf m k = true → bitOf v k = true → bitOf w k = true) : (w ||| ~~~v) &&& m = m := by
  ext j hj
  have hk := h (BitVec.ofNat 3 j)
  simp only [bitOf, BitVec.toNat_ofNat, Nat.mod_eq_of_lt hj, BitVec.getLsbD_eq_getElem hj] at hk
  cases hm : m[j] <;> cases hv : v[j] <;> simp_all

/-- Settles O44: no other instruction clears an error bit or a latched error. -/
theorem latchedErrorsStayUntilCleared : Obligations.LatchedErrorsStayUntilCleared := by
  intro i s t h hc hi ht
  obtain ⟨bits, latched⟩ := (exec_effect h).keepsErrors hc hi ht
  exact ⟨or_not_and_eq_of_bits_kept bits, latched⟩

end Sys2Proof.Machine
end

section
/-! SUPPORT. What the instructions do not read: CR1 beyond the commands that answer it (R30), and the flags that
INIT alone writes (R37, R38). With other values there an instruction has the same effect, and so the same
fault. -/

namespace Sys2Proof.Machine

open Sys2Proof

variable {i : Instr} {s t : State} {f : Fault}

/-! ### Which fault it is -/

theorem whenAddressed_fault {hp : Bool} {k : Result} (h : whenAddressed hp k = .fault f)
    (hk : k = .fault f → f = .notInitialised) : f = if hp then .notInitialised else .noInstance := by
  cases hp
  · cases h; rfl
  · exact hk h

theorem whenReady_fault {k : Result} (h : whenReady s k = .fault f)
    (hk : k = .fault f → f = .notInitialised) : f = .notInitialised := by
  unfold whenReady at h
  split at h
  · exact hk h
  · cases h; rfl

theorem withFifo_fault {q : Option (List Byte)} {k : List Byte → Result}
    (h : withFifo q k = .fault f) (hk : ∀ bytes, k bytes ≠ .fault f) : f = .notInitialised := by
  cases q with
  | none => cases h; rfl
  | some bytes => exact absurd h (hk bytes)

/-- An instruction has one fault where it is addressed and one where it is not, so the state decides only
whether it faults (R111, R115). -/
theorem exec_fault_eq (h : exec i s = .fault f) :
    f = if isAddressed i then .notInitialised else .noInstance := by
  cases i <;> simp only [exec] at h
  case init hp cfg => cases hp <;> cases cfg <;> cases h
  case sendByte hp b =>
    cases hp
    · cases h
    · refine whenReady_fault h fun h => withFifo_fault h fun q => ?_
      split <;> nofun
  case receiveByte hp =>
    cases hp
    · cases h
    · refine whenReady_fault h fun h => withFifo_fault h fun q => ?_
      cases q <;> nofun
  case sendBuffer hp p =>
    refine whenAddressed_fault h fun h => whenReady_fault h fun h => withFifo_fault h fun q => ?_
    simp only; split <;> nofun
  case receiveBuffer hp m =>
    refine whenAddressed_fault h fun h => whenReady_fault h fun h => withFifo_fault h fun q => ?_
    simp only; split <;> nofun
  case rxFrame => unfold execRxFrame at h; split at h <;> cases h
  case txShift => unfold execTxShift at h; split at h <;> cases h
  case reserved => cases h
  -- The others answer `Ok` once they are through their checks.
  all_goals exact whenAddressed_fault h fun h => whenReady_fault h nofun

/-- If an instruction goes on from `s` wherever it does from `u`, it faults from `u` as from `s`. -/
theorem exec_fault_transfer {u : State}
    (goes_on : ∀ t, exec i u = .next t → ∃ t', exec i s = .next t') (h : exec i s = .fault f) :
    exec i u = .fault f := by
  cases hu : exec i u with
  | next t =>
    obtain ⟨t', ht'⟩ := goes_on t hu
    rw [h] at ht'
    cases ht'
  | fault g => rw [exec_fault_eq h, exec_fault_eq hu]
  | refused r => exact absurd hu (exec_not_refused i u r)

/-! ### CR1 and the flags of R37 and R38 -/

/-- The four flags that INIT alone writes (R37, R38). -/
structure InertFlags where
  rxBusy : Bool
  txInterrupt : Bool
  rxInterrupt : Bool
  errorInterrupt : Bool

/-- What INIT leaves in them (R82). -/
def InertFlags.off : InertFlags := ⟨false, false, false, false⟩

def State.inertFlags (s : State) : InertFlags :=
  ⟨s.rxBusy, s.txInterruptEnabled, s.rxInterruptEnabled, s.errorInterruptEnabled⟩

/-- `s` with other values in CR1 and in the four flags. -/
def State.putInert (v : Byte) (n : InertFlags) (s : State) : State :=
  { s with
    cr1 := v, rxBusy := n.rxBusy, txInterruptEnabled := n.txInterrupt
    rxInterruptEnabled := n.rxInterrupt, errorInterruptEnabled := n.errorInterrupt }

section putInert
variable (v : Byte) (n : InertFlags)

theorem readCsr_putInert (s : State) (r : Csr) (hr : r = .cr1 → v = s.cr1) :
    readCsr r (s.putInert v n) = readCsr r s := by
  cases r
  case cr1 => exact hr rfl
  all_goals rfl

theorem taken_putInert (b : Byte) (q : List Byte) (s : State) :
    (s.putInert v n).taken b q = (s.taken b q).putInert v n := by
  cases q <;> rfl

theorem receive_putInert (b : Byte) (pe fe : Bool) (s : State) :
    receive b pe fe (s.putInert v n) = (receive b pe fe s).putInert v n := by
  obtain ⟨h, e⟩ | ⟨q, h, hq, e⟩ | ⟨q, h, hq, e⟩ := receive_cases b pe fe s <;> rw [e]
  · unfold receive; rw [show (s.putInert v n).rxq = none from h]
  · rw [receive_of_full (s := s.putInert v n) h hq]; rfl
  · rw [receive_of_room (s := s.putInert v n) h hq, storeFrame_eq]; rfl

theorem drain_putInert (b : Byte) (q : List Byte) (s : State) :
    drain b q (s.putInert v n) = (drain b q s).putInert v n := by
  have drained : (s.putInert v n).drained b q = (s.drained b q).putInert v n := by
    unfold State.drained; split <;> rfl
  rw [drain_eq_receive_drained, drain_eq_receive_drained, drained, receive_putInert]
  exact (apply_ite (State.putInert v n) (s.params.loopback = true) _ _).symm

end putInert

/-- Only the two commands that answer CR1 read it, and nothing reads the flags. What an instruction leaves
there is what it found, or a value of its own. -/
theorem Effect.putInert (h : Effect s i t) (v : Byte) (n : InertFlags)
    (hread : ∀ hp, i = .regRead hp .cr1 → v = s.cr1)
    (htest : ∀ hp k, i = .testBit hp .cr1 k → v = s.cr1) :
    ∃ v' n', Effect (s.putInert v n) i (t.putInert v' n') ∧
      (v = s.cr1 → v' = t.cr1) ∧ (n = s.inertFlags → n' = t.inertFlags) := by
  cases h
  case initNull hp cfg hn => exact ⟨v, n, .initNull hp cfg hn, id, id⟩
  case initOk c hd => exact ⟨0, .off, .initOk c hd, fun _ => rfl, fun _ => rfl⟩
  case initFail c hd => exact ⟨0, .off, .initFail c hd, fun _ => rfl, fun _ => rfl⟩
  case sendByteNull b => exact ⟨v, n, .sendByteNull b, id, id⟩
  case sendByteFull b q hl hq hf => exact ⟨v, n, .sendByteFull b q hl hq hf, id, id⟩
  case sendByteOk b q hl hq hf => exact ⟨v, n, .sendByteOk b q hl hq hf, id, id⟩
  case sendBufferNone p q hl hq hn => exact ⟨v, n, .sendBufferNone p q hl hq hn, id, id⟩
  case sendBufferSome p q b hl hq hb => exact ⟨v, n, .sendBufferSome p q b hl hq hb, id, id⟩
  case isTxEmpty hl => exact ⟨v, n, .isTxEmpty hl, id, id⟩
  case receiveByteNull => exact ⟨v, n, .receiveByteNull, id, id⟩
  case receiveByteEmpty hl hq => exact ⟨v, n, .receiveByteEmpty hl hq, id, id⟩
  case receiveByteOk b q hl hq =>
    have e := Effect.receiveByteOk (s := s.putInert v n) b q hl hq
    rw [taken_putInert] at e
    exact ⟨v, n, e, by simp, by simp [State.inertFlags]⟩
  case receiveBufferNone m q hl hq hn => exact ⟨v, n, .receiveBufferNone m q hl hq hn, id, id⟩
  case receiveBufferSome m q b hl hq hb =>
    have e := Effect.receiveBufferSome (s := s.putInert v n) m q b hl hq hb
    rw [taken_putInert] at e
    exact ⟨v, n, e, by simp, by simp [State.inertFlags]⟩
  case isDataReady hl => exact ⟨v, n, .isDataReady hl, id, id⟩
  case getError hl => exact ⟨v, n, .getError hl, id, id⟩
  case clearError hl => exact ⟨v, n, .clearError hl, id, id⟩
  case regRead r hl =>
    have e := Effect.regRead (s := s.putInert v n) r hl
    rw [readCsr_putInert v n s r (by rintro rfl; exact hread _ rfl)] at e
    exact ⟨v, n, e, id, id⟩
  case testBit r k hl =>
    have e := Effect.testBit (s := s.putInert v n) r k hl
    rw [readCsr_putInert v n s r (by rintro rfl; exact htest _ _ rfl)] at e
    exact ⟨v, n, e, id, id⟩
  case setBit k hl => exact ⟨_, n, .setBit k hl, fun hv => by simp [hv, State.putInert], id⟩
  case clearBit k hl => exact ⟨_, n, .clearBit k hl, fun hv => by simp [hv, State.putInert], id⟩
  case teardown hl => exact ⟨0, .off, .teardown hl, fun _ => rfl, fun _ => rfl⟩
  case rxFrame fe pe b hl =>
    have e := Effect.rxFrame (s := s.putInert v n) fe pe b hl
    rw [receive_putInert] at e
    exact ⟨v, n, e, by simp, by simp [State.inertFlags]⟩
  case rxFrameOff fe pe b hl => exact ⟨v, n, .rxFrameOff fe pe b hl, id, id⟩
  case txShift b q hl hq =>
    have e := Effect.txShift (s := s.putInert v n) b q hl hq
    rw [drain_putInert] at e
    exact ⟨v, n, e, by simp, by simp [State.inertFlags]⟩
  case reserved bits => exact ⟨v, n, .reserved bits, id, id⟩
  case txShiftOff hn => exact ⟨v, n, .txShiftOff hn, id, id⟩

/-- An instruction that does not read what differs ends the same way: the effects carry over both ways. -/
theorem exec_putInert_fault (v : Byte) (n : InertFlags)
    (hread : ∀ hp, i = .regRead hp .cr1 → v = s.cr1)
    (htest : ∀ hp k, i = .testBit hp .cr1 k → v = s.cr1) (h : exec i s = .fault f) :
    exec i (s.putInert v n) = .fault f := by
  refine exec_fault_transfer (fun t ht => ?_) h
  obtain ⟨v', n', back, -, -⟩ := (exec_effect ht).putInert s.cr1 s.inertFlags
    (fun hp hi => (hread hp hi).symm) (fun hp k hi => (htest hp k hi).symm)
  exact ⟨_, back.exec⟩

/-- Settles O18: CR1 alone differs, and the instruction does not read it. -/
theorem cr1BitsAffectNothingElse : Obligations.Cr1BitsAffectNothingElse := by
  intro i s v hread htest
  refine ⟨fun t h => ?_, fun f h => ?_⟩
  · obtain ⟨v', n', e, -, hn⟩ := (exec_effect h).putInert v s.inertFlags
      (fun hp hi => absurd hi (hread hp)) (fun hp k hi => absurd hi (htest hp k))
    obtain rfl := hn rfl
    exact ⟨t.putInert v' t.inertFlags, e.exec, rfl⟩
  · exact exec_putInert_fault v s.inertFlags
      (fun hp hi => absurd hi (hread hp)) (fun hp k hi => absurd hi (htest hp k)) h

/-- No meaning but INIT's and TEARDOWN's writes the four flags. -/
theorem Effect.inertFlags_eq (h : Effect s i t) (hi : ∀ hp cfg, i ≠ .init hp cfg)
    (ht : ∀ hp, i ≠ .teardown hp) : t.inertFlags = s.inertFlags := by
  cases h
  case initNull => exact absurd rfl (hi _ _)
  case initOk => exact absurd rfl (hi _ _)
  case initFail => exact absurd rfl (hi _ _)
  case teardown => exact absurd rfl (ht _)
  all_goals simp [State.inertFlags]

/-- Settles O26: the flags are kept, and where they alone differ the instruction has the same effect. -/
theorem inertFlagsAreNeitherReadNorWritten : Obligations.InertFlagsAreNeitherReadNorWritten := by
  refine ⟨fun i s t h hi ht => ?_, ?_⟩
  · simpa [State.inertFlags] using (exec_effect h).inertFlags_eq hi ht
  · rintro i s _ a b c d rfl
    refine ⟨fun t h => ?_, fun f h => ?_⟩
    · obtain ⟨v', n', e, hv, -⟩ := (exec_effect h).putInert s.cr1 ⟨a, b, c, d⟩
        (fun _ _ => rfl) (fun _ _ _ => rfl)
      obtain rfl := hv rfl
      exact ⟨t.putInert t.cr1 n', e.exec, rfl⟩
    · exact exec_putInert_fault s.cr1 ⟨a, b, c, d⟩ (fun _ _ => rfl) (fun _ _ _ => rfl) h

end Sys2Proof.Machine
end

section
/-! SUPPORT. The reading commands (R50): each answers what it reads, and an answer changes nothing it reads. -/

namespace Sys2Proof.Machine

open Sys2Proof

theorem State.respond_respond (r r' : Response) (s : State) :
    (s.respond r).respond r' = { s with responses := s.responses ++ [r, r'] } := by
  simp [State.respond]

/-- Settles O19: each reading command has one effect, an answer, and from the state it leaves the same effect
again. -/
theorem readingCommandsChangeNoState : Obligations.ReadingCommandsChangeNoState := by
  intro i s t h hi
  have answers_again : ∃ r, t = s.respond r ∧ Effect t i (t.respond r) := by
    cases exec_effect h
    case isTxEmpty hl => exact ⟨_, rfl, .isTxEmpty hl⟩
    case isDataReady hl => exact ⟨_, rfl, .isDataReady hl⟩
    case getError hl => exact ⟨_, rfl, .getError hl⟩
    case regRead reg hl => exact ⟨_, rfl, .regRead reg hl⟩
    case testBit reg k hl => exact ⟨_, rfl, .testBit reg k hl⟩
    -- The other instructions are no reading commands.
    all_goals exact hi.elim
  obtain ⟨r, rfl, again⟩ := answers_again
  exact ⟨r, rfl, by rw [again.exec, State.respond_respond]⟩

end Sys2Proof.Machine
end

section
/-! SUPPORT. The words of R60 to R67 and their fields: what each field of a format reads, and a word put together
again from its fields. -/

namespace Sys2Proof

open BitVec (extractLsb'_append_eq_of_le extractLsb'_append_eq_left extractLsb'_append_eq_right
  extractLsb'_append_extractLsb'_eq_extractLsb' extractLsb'_eq_self)

theorem ofBool_getLsbD {n : Nat} (x : BitVec n) (j : Nat) :
    BitVec.ofBool (x.getLsbD j) = x.extractLsb' j 1 := by
  ext k hk
  obtain rfl : k = 0 := by omega
  simp

/-- A one-bit field is read as a Boolean. -/
theorem getLsbD_of_field {n : Nat} {x : BitVec n} {j : Nat} {b : Bool}
    (h : x.extractLsb' j 1 = BitVec.ofBool b) : x.getLsbD j = b :=
  BitVec.ofBool_eq_iff_eq.mp ((ofBool_getLsbD x j).trans h)

section fields
variable (op : BitVec 4) (hp : Bool) (v : BitVec 8) (r : BitVec 3) (k : BitIndex)

@[simp] theorem opcodeOf_formatN : opcodeOf (formatN op hp) = op := by
  rw [opcodeOf, formatN, extractLsb'_append_eq_of_le (by decide)]
  exact extractLsb'_append_eq_left

@[simp] theorem hpOf_formatN : hpOf (formatN op hp) = hp := by
  apply getLsbD_of_field
  rw [formatN, extractLsb'_append_eq_of_le (by decide)]
  exact extractLsb'_append_eq_right

@[simp] theorem operand_formatN : (formatN op hp).extractLsb' 0 11 = 0#11 := extractLsb'_append_eq_right

@[simp] theorem opcodeOf_formatB : opcodeOf (formatB op hp v) = op := by
  rw [opcodeOf, formatB, extractLsb'_append_eq_of_le (by decide),
    extractLsb'_append_eq_of_le (by decide)]
  exact extractLsb'_append_eq_left

@[simp] theorem hpOf_formatB : hpOf (formatB op hp v) = hp := by
  apply getLsbD_of_field
  rw [formatB, extractLsb'_append_eq_of_le (by decide), extractLsb'_append_eq_of_le (by decide)]
  exact extractLsb'_append_eq_right

@[simp] theorem zeros_formatB : (formatB op hp v).extractLsb' 8 3 = 0#3 := by
  rw [formatB, extractLsb'_append_eq_of_le (by decide)]
  exact extractLsb'_append_eq_right

@[simp] theorem operand_formatB : (formatB op hp v).extractLsb' 0 8 = v := extractLsb'_append_eq_right

@[simp] theorem opcodeOf_formatR : opcodeOf (formatR op hp r k) = op := by
  rw [opcodeOf, formatR, extractLsb'_append_eq_of_le (by decide),
    extractLsb'_append_eq_of_le (by decide), extractLsb'_append_eq_of_le (by decide)]
  exact extractLsb'_append_eq_left

@[simp] theorem hpOf_formatR : hpOf (formatR op hp r k) = hp := by
  apply getLsbD_of_field
  rw [formatR, extractLsb'_append_eq_of_le (by decide), extractLsb'_append_eq_of_le (by decide),
    extractLsb'_append_eq_of_le (by decide)]
  exact extractLsb'_append_eq_right

@[simp] theorem reg_formatR : (formatR op hp r k).extractLsb' 8 3 = r := by
  rw [formatR, extractLsb'_append_eq_of_le (by decide), extractLsb'_append_eq_of_le (by decide)]
  exact extractLsb'_append_eq_right

@[simp] theorem zeros_formatR : (formatR op hp r k).extractLsb' 3 5 = 0#5 := by
  rw [formatR, extractLsb'_append_eq_of_le (by decide)]
  exact extractLsb'_append_eq_right

@[simp] theorem bit_formatR : (formatR op hp r k).extractLsb' 0 3 = k := extractLsb'_append_eq_right

end fields

section words
variable {w : CommandWord}

/-- REG_READ checks at once the BIT field and the bits above it (R66). -/
theorem low_byte_eq_zero_iff :
    w.extractLsb' 0 8 = 0#8 ↔ w.extractLsb' 3 5 = 0#5 ∧ w.extractLsb' 0 3 = 0#3 := by
  simp only [← BitVec.toNat_inj, BitVec.extractLsb'_toNat, BitVec.toNat_ofNat, Nat.shiftRight_eq_div_pow]
  omega

/-- Bits 15:13 of opcodes 0xE and 0xF (R69 (a)). -/
theorem top_bits_eq_iff : w.extractLsb' 13 3 = 0b111#3 ↔ 14 ≤ (opcodeOf w).toNat := by
  have := w.isLt
  simp only [opcodeOf, ← BitVec.toNat_inj, BitVec.extractLsb'_toNat, BitVec.toNat_ofNat,
    Nat.shiftRight_eq_div_pow]
  omega

theorem word_eq_formatN (h : w.extractLsb' 0 11 = 0#11) : formatN (opcodeOf w) (hpOf w) = w := by
  rw [formatN, opcodeOf, hpOf, ofBool_getLsbD, ← h]
  iterate 2 rw [extractLsb'_append_extractLsb'_eq_extractLsb' (by decide)]
  exact extractLsb'_eq_self

theorem word_eq_formatB (h : w.extractLsb' 8 3 = 0#3) :
    formatB (opcodeOf w) (hpOf w) (w.extractLsb' 0 8) = w := by
  rw [formatB, opcodeOf, hpOf, ofBool_getLsbD, ← h]
  iterate 3 rw [extractLsb'_append_extractLsb'_eq_extractLsb' (by decide)]
  exact extractLsb'_eq_self

theorem word_eq_formatR (h : w.extractLsb' 3 5 = 0#5) :
    formatR (opcodeOf w) (hpOf w) (w.extractLsb' 8 3) (w.extractLsb' 0 3) = w := by
  rw [formatR, opcodeOf, hpOf, ofBool_getLsbD, ← h]
  iterate 4 rw [extractLsb'_append_extractLsb'_eq_extractLsb' (by decide)]
  exact extractLsb'_eq_self

end words

end Sys2Proof
end

section
/-! SUPPORT. The decoder against the encoder (R70, R75): each operand field read and written, each format's decoder
on the words of the format, and the words it admits. -/

namespace Sys2Proof

open BitVec (extractLsb'_append_eq_left extractLsb'_append_eq_right
  extractLsb'_append_extractLsb'_eq_extractLsb' extractLsb'_eq_self)

/-! ### The operand fields -/

theorem decodeBaud_eq_some_iff {f : BitVec 3} {b : BaudRate} : decodeBaud f = some b ↔ f = encodeBaud b := by
  cases b <;> revert f <;> decide

theorem decodeParity_eq_some_iff {f : BitVec 2} {p : Parity} :
    decodeParity f = some p ↔ f = encodeParity p := by
  cases p <;> revert f <;> decide

theorem decodeCsr_eq_some_iff {f : BitVec 3} {r : Csr} : decodeCsr f = some r ↔ f = encodeCsr r := by
  cases r <;> revert f <;> decide

@[simp] theorem decodeCsr_encodeCsr (r : Csr) : decodeCsr (encodeCsr r) = some r :=
  decodeCsr_eq_some_iff.mpr rfl

theorem encodeDataBits_decodeDataBits (d8 : Bool) : encodeDataBits (decodeDataBits d8) = d8 := by
  cases d8 <;> rfl

theorem encodeStopBits_decodeStopBits (s2 : Bool) : encodeStopBits (decodeStopBits s2) = s2 := by
  cases s2 <;> rfl

/-! ### Decoding a word of a format -/

section decoders
variable {mk : Bool → Instr} {mkByte : Bool → Byte → Instr} {mkBit : Bool → BitIndex → Instr}
variable (op : BitVec 4) (hp : Bool)

/-- Each of the 61 operands of INIT. -/
theorem decodeCommand_formatI (cfg : Option UartConfig) :
    decodeCommand (formatI hp cfg) [] = .ok (.init hp cfg) := by
  obtain _ | ⟨b, p, d, s⟩ := cfg
  · cases hp <;> rfl
  · cases hp <;> cases b <;> cases p <;> cases d <;> cases s <;> rfl

@[simp] theorem decodeNoOperand_formatN : decodeNoOperand mk (formatN op hp) = .ok (mk hp) := by
  simp [decodeNoOperand]

@[simp] theorem decodeByteOperand_formatB (v : Byte) :
    decodeByteOperand mkByte (formatB op hp v) = .ok (mkByte hp v) := by
  simp [decodeByteOperand]

theorem decodeSendBuffer_formatB {p : List Byte} (h : p.length ≤ 255) :
    decodeSendBuffer (formatB op hp (BitVec.ofNat 8 p.length)) p = .ok (.sendBuffer hp p) := by
  have len : p.length % 256 = p.length := Nat.mod_eq_of_lt (by omega)
  simp [decodeSendBuffer, len]

@[simp] theorem decodeRegRead_formatR (r : Csr) :
    decodeRegRead (formatR op hp (encodeCsr r) 0#3) = .ok (.regRead hp r) := by
  have low : (formatR op hp (encodeCsr r) 0#3).extractLsb' 0 8 = 0#8 := by simp [low_byte_eq_zero_iff]
  simp [decodeRegRead, low]

@[simp] theorem decodeTestBit_formatR (r : Csr) (k : BitIndex) :
    decodeTestBit (formatR op hp (encodeCsr r) k) = .ok (.testBit hp r k) := by
  simp [decodeTestBit]

@[simp] theorem decodeCr1Bit_formatR (k : BitIndex) :
    decodeCr1Bit mkBit (formatR op hp (encodeCsr .cr1) k) = .ok (mkBit hp k) := by
  simp [decodeCr1Bit, encodeCsr]

end decoders

/-- The two reserved opcodes, with no payload (R69 (a); log 6). -/
theorem decodeCommand_of_reserved_opcode {w : CommandWord} (h : 14 ≤ (opcodeOf w).toNat) :
    decodeCommand w [] = .ok (.reserved (w.extractLsb' 0 13)) := by
  simp only [decodeCommand, ne_eq, not_true_eq_false, and_false, ↓reduceIte]
  split
  -- The last branch is theirs; the others name a smaller opcode.
  case h_15 => rfl
  all_goals omega

theorem decodeFrame_frame (fe pe : Bool) (v : Byte) :
    decodeFrame (BitVec.ofBool fe ++ BitVec.ofBool pe ++ v) = .rxFrame fe pe v := by
  have h9 : (BitVec.ofBool fe ++ BitVec.ofBool pe ++ v : LineWord).getLsbD 9 = fe := by
    apply getLsbD_of_field
    rw [BitVec.extractLsb'_append_eq_of_le (by decide)]
    exact extractLsb'_append_eq_left
  have h8 : (BitVec.ofBool fe ++ BitVec.ofBool pe ++ v : LineWord).getLsbD 8 = pe := by
    apply getLsbD_of_field
    rw [BitVec.extractLsb'_append_eq_of_le (by decide)]
    exact extractLsb'_append_eq_right
  rw [decodeFrame, h9, h8]
  exact congrArg (Instr.rxFrame fe pe) extractLsb'_append_eq_right

/-- R75: a well-formed instruction is read back from its words. -/
theorem decode_encode {i : Instr} (h : i.wellFormed = true) : decode (encode i) = .ok i := by
  cases i
  case init => exact decodeCommand_formatI ..
  case sendBuffer hp p =>
    rw [Instr.wellFormed, decide_eq_true_iff] at h
    simp [decode, encode, decodeCommand, decodeSendBuffer_formatB _ _ h]
  case rxFrame => exact congrArg Except.ok (decodeFrame_frame ..)
  case txShift => rfl
  case reserved b =>
    have low : (0b111#3 ++ b : CommandWord).extractLsb' 0 13 = b := extractLsb'_append_eq_right
    have top : (0b111#3 ++ b : CommandWord).extractLsb' 13 3 = 0b111#3 := extractLsb'_append_eq_left
    rw [encode, decode, decodeCommand_of_reserved_opcode (top_bits_eq_iff.mp top), low]
  all_goals simp [decode, encode, decodeCommand]

/-! ### The words a decoder admits -/

section admitted
variable {w : CommandWord} {p : List Byte} {i : Instr} {op : BitVec 4}

/-- `x` is what `i` puts on its port, and the formats can express `i` (R75). -/
def Instr.HasWords (i : Instr) (x : PortInput) : Prop := encode i = x ∧ i.wellFormed = true

theorem hasWords_of_decodeNoOperand {mk : Bool → Instr}
    (h : decodeNoOperand mk w = .ok i)
    (hmk : ∀ hp, (mk hp).HasWords (.command (formatN op hp) [])) (hop : opcodeOf w = op) :
    i.HasWords (.command w []) := by
  unfold decodeNoOperand at h
  split at h <;> cases h
  rename_i hz
  have words := hmk (hpOf w)
  rwa [← hop, word_eq_formatN (not_not.mp hz)] at words

theorem hasWords_of_decodeByteOperand {mk : Bool → Byte → Instr}
    (h : decodeByteOperand mk w = .ok i)
    (hmk : ∀ hp v, (mk hp v).HasWords (.command (formatB op hp v) [])) (hop : opcodeOf w = op) :
    i.HasWords (.command w []) := by
  unfold decodeByteOperand at h
  split at h <;> cases h
  rename_i hz
  have words := hmk (hpOf w) (w.extractLsb' 0 8)
  rwa [← hop, word_eq_formatB (not_not.mp hz)] at words

theorem hasWords_of_decodeCr1Bit {mk : Bool → BitIndex → Instr}
    (h : decodeCr1Bit mk w = .ok i)
    (hmk : ∀ hp k, (mk hp k).HasWords (.command (formatR op hp 2#3 k) [])) (hop : opcodeOf w = op) :
    i.HasWords (.command w []) := by
  unfold decodeCr1Bit at h
  split at h <;> cases h
  rename_i hz
  obtain ⟨hreg, hz⟩ : w.extractLsb' 8 3 = 2#3 ∧ w.extractLsb' 3 5 = 0#5 := by simpa using hz
  have words := hmk (hpOf w) (w.extractLsb' 0 3)
  rwa [← hop, ← hreg, word_eq_formatR hz] at words

theorem hasWords_of_decodeSendBuffer (h : decodeSendBuffer w p = .ok i) (hop : opcodeOf w = 0x2#4) :
    i.HasWords (.command w p) := by
  unfold decodeSendBuffer at h
  split at h
  · cases h
  split at h <;> cases h
  rename_i hz hlen
  have hlen : p.length = (w.extractLsb' 0 8).toNat := not_not.mp hlen
  refine ⟨?_, decide_eq_true (by omega)⟩
  rw [encode, hlen, BitVec.ofNat_toNat, BitVec.setWidth_eq, ← hop, word_eq_formatB (not_not.mp hz)]

theorem hasWords_of_decodeRegRead (h : decodeRegRead w = .ok i) (hop : opcodeOf w = 0x9#4) :
    i.HasWords (.command w []) := by
  unfold decodeRegRead at h
  split at h
  · cases h
  split at h <;> cases h
  rename_i r hr hz
  obtain ⟨hz, hbit⟩ := low_byte_eq_zero_iff.mp (not_not.mp hz)
  refine ⟨?_, rfl⟩
  rw [encode, ← decodeCsr_eq_some_iff.mp hr, ← hop, ← hbit, word_eq_formatR hz]

theorem hasWords_of_decodeTestBit (h : decodeTestBit w = .ok i) (hop : opcodeOf w = 0xA#4) :
    i.HasWords (.command w []) := by
  unfold decodeTestBit at h
  split at h
  · cases h
  split at h <;> cases h
  rename_i r hr hz
  refine ⟨?_, rfl⟩
  rw [encode, ← decodeCsr_eq_some_iff.mp hr, ← hop, word_eq_formatR (not_not.mp hz)]

theorem word_eq_formatI_none (hop : opcodeOf w = 0x0#4) (hz : w.extractLsb' 7 3 = 0#3)
    (hcp : w.getLsbD 10 = false) (hcfg : w.extractLsb' 0 7 = 0#7) : formatI (hpOf w) none = w := by
  have hcp : w.extractLsb' 10 1 = 0#1 := by rw [← ofBool_getLsbD, hcp]; rfl
  rw [formatI, hpOf, ofBool_getLsbD, ← hop, ← hcp, ← hz, ← hcfg, opcodeOf]
  iterate 4 rw [extractLsb'_append_extractLsb'_eq_extractLsb' (by decide)]
  exact extractLsb'_eq_self

theorem word_eq_formatI_some {c : UartConfig} (hop : opcodeOf w = 0x0#4) (hz : w.extractLsb' 7 3 = 0#3)
    (hcp : w.getLsbD 10 = true) (hc : decodeConfig w = some c) : formatI (hpOf w) (some c) = w := by
  have hcp : w.extractLsb' 10 1 = 1#1 := by rw [← ofBool_getLsbD, hcp]; rfl
  unfold decodeConfig at hc
  split at hc <;> cases hc
  rename_i hb hp
  rw [formatI, encodeStopBits_decodeStopBits, encodeDataBits_decodeDataBits, hpOf, ofBool_getLsbD,
    ofBool_getLsbD, ofBool_getLsbD, ← decodeBaud_eq_some_iff.mp hb, ← decodeParity_eq_some_iff.mp hp, ← hop,
    ← hcp, ← hz, opcodeOf]
  iterate 7 rw [extractLsb'_append_extractLsb'_eq_extractLsb' (by decide)]
  exact extractLsb'_eq_self

theorem hasWords_of_decodeInit (h : decodeInit w = .ok i) (hop : opcodeOf w = 0x0#4) :
    i.HasWords (.command w []) := by
  unfold decodeInit at h
  split at h
  · cases h
  rename_i hz
  have hz := not_not.mp hz
  split at h
  · rename_i hcp
    split at h <;> cases h
    rename_i hcfg
    exact ⟨congrArg (PortInput.command · []) (word_eq_formatI_none hop hz hcp (not_not.mp hcfg)), rfl⟩
  · rename_i hcp
    split at h <;> cases h
    rename_i c hc
    exact ⟨congrArg (PortInput.command · []) (word_eq_formatI_some hop hz (by simpa using hcp) hc), rfl⟩

theorem hasWords_of_reserved_opcode (h : 14 ≤ (opcodeOf w).toNat) :
    (Instr.reserved (w.extractLsb' 0 13)).HasWords (.command w []) := by
  refine ⟨?_, rfl⟩
  rw [encode, ← top_bits_eq_iff.mpr h,
    extractLsb'_append_extractLsb'_eq_extractLsb' (by decide)]
  exact congrArg (PortInput.command · []) extractLsb'_eq_self

theorem decodeCommand_of_sendBuffer_opcode (hop : opcodeOf w = 0x2#4) :
    decodeCommand w p = decodeSendBuffer w p := by
  simp [decodeCommand, hop]

/-- R69 (g). -/
theorem decodeCommand_of_payload (hop : opcodeOf w ≠ 0x2#4) (hp : p ≠ []) :
    decodeCommand w p = .error .payloadMismatch := by
  simp [decodeCommand, hop, hp]

/-- A command the decoder admits has no payload, unless it is SEND_BUFFER (R69 (g)). -/
theorem payload_eq_nil_of_decodeCommand (h : decodeCommand w p = .ok i) (hop : opcodeOf w ≠ 0x2#4) : p = [] := by
  by_contra hp
  rw [decodeCommand_of_payload hop hp] at h
  cases h

/-- The split is on the opcode: branch `h_(k + 1)` is opcode `k`, and the last is the two reserved ones. -/
theorem hasWords_of_decodeCommand (h : decodeCommand w p = .ok i) : i.HasWords (.command w p) := by
  by_cases hop2 : opcodeOf w = 0x2#4
  · exact hasWords_of_decodeSendBuffer (decodeCommand_of_sendBuffer_opcode hop2 ▸ h) hop2
  obtain rfl := payload_eq_nil_of_decodeCommand h hop2
  simp only [decodeCommand, ne_eq, not_true_eq_false, and_false, ↓reduceIte] at h
  split at h
  case h_1 hop => exact hasWords_of_decodeInit h (BitVec.eq_of_toNat_eq hop)
  case h_2 hop => exact hasWords_of_decodeByteOperand h (fun _ _ => ⟨rfl, rfl⟩) (BitVec.eq_of_toNat_eq hop)
  case h_3 hop => exact absurd (BitVec.eq_of_toNat_eq hop) hop2
  case h_6 hop => exact hasWords_of_decodeByteOperand h (fun _ _ => ⟨rfl, rfl⟩) (BitVec.eq_of_toNat_eq hop)
  case h_10 hop => exact hasWords_of_decodeRegRead h (BitVec.eq_of_toNat_eq hop)
  case h_11 hop => exact hasWords_of_decodeTestBit h (BitVec.eq_of_toNat_eq hop)
  case h_12 hop => exact hasWords_of_decodeCr1Bit h (fun _ _ => ⟨rfl, rfl⟩) (BitVec.eq_of_toNat_eq hop)
  case h_13 hop => exact hasWords_of_decodeCr1Bit h (fun _ _ => ⟨rfl, rfl⟩) (BitVec.eq_of_toNat_eq hop)
  case h_15 =>
    cases h
    simp only [imp_false] at *
    exact hasWords_of_reserved_opcode (by omega)
  -- The others have no operand.
  all_goals
    rename_i hop
    exact hasWords_of_decodeNoOperand h (fun _ => ⟨rfl, rfl⟩) (BitVec.eq_of_toNat_eq hop)

end admitted

theorem encode_decodeFrame (f : LineWord) : encode (decodeFrame f) = .frame f := by
  rw [decodeFrame, encode, ofBool_getLsbD, ofBool_getLsbD]
  iterate 2 rw [extractLsb'_append_extractLsb'_eq_extractLsb' (by decide)]
  exact congrArg PortInput.frame extractLsb'_eq_self

/-- R75: what decodes is exactly the words of the instruction it decodes to. -/
theorem hasWords_of_decode {x : PortInput} {i : Instr} (h : decode x = .ok i) : i.HasWords x := by
  cases x
  case command => exact hasWords_of_decodeCommand h
  case frame f => cases h; exact ⟨encode_decodeFrame f, rfl⟩
  case shift => cases h; exact ⟨rfl, rfl⟩

/-- Settles O11: the decoder on each format's words, and the words each format's decoder admits. -/
theorem eachInstructionHasExactlyOneWord : Obligations.EachInstructionHasExactlyOneWord :=
  ⟨fun _ => decode_encode, fun _ _ => hasWords_of_decode⟩

end Sys2Proof
end

section
/-! SUPPORT. What each format's decoder refuses, by the fields it checks (R69 (b) to (e)). -/

namespace Sys2Proof

variable {w : CommandWord} {r : DecodeRefusal}

theorem decodeBaud_eq_none_iff {f : BitVec 3} : decodeBaud f = none ↔ 5#3 ≤ f := by
  revert f; decide

theorem decodeParity_eq_none_iff {f : BitVec 2} : decodeParity f = none ↔ f = 3#2 := by
  revert f; decide

theorem decodeCsr_eq_none_iff {f : BitVec 3} : decodeCsr f = none ↔ 5#3 ≤ f := by
  revert f; decide

/-- R69 (c). -/
theorem decodeConfig_eq_none_iff :
    decodeConfig w = none ↔ 5#3 ≤ w.extractLsb' 0 3 ∨ w.extractLsb' 3 2 = 3#2 := by
  rw [← decodeBaud_eq_none_iff, ← decodeParity_eq_none_iff, decodeConfig]
  cases decodeBaud (w.extractLsb' 0 3) <;> cases decodeParity (w.extractLsb' 3 2) <;> simp

theorem decodeNoOperand_eq_error_iff {mk : Bool → Instr} :
    decodeNoOperand mk w = .error r ↔ r = .reservedEncoding ∧ w.extractLsb' 0 11 ≠ 0#11 := by
  unfold decodeNoOperand
  split <;> simp_all [eq_comm (b := r)]

theorem decodeByteOperand_eq_error_iff {mk : Bool → Byte → Instr} :
    decodeByteOperand mk w = .error r ↔ r = .reservedEncoding ∧ w.extractLsb' 8 3 ≠ 0#3 := by
  unfold decodeByteOperand
  split <;> simp_all [eq_comm (b := r)]

theorem decodeCr1Bit_eq_error_iff {mk : Bool → BitIndex → Instr} :
    decodeCr1Bit mk w = .error r ↔
      r = .reservedEncoding ∧ (w.extractLsb' 3 5 ≠ 0#5 ∨ w.extractLsb' 8 3 ≠ 2#3) := by
  rw [decodeCr1Bit]
  by_cases hz : w.extractLsb' 3 5 = 0#5
  · by_cases hreg : w.extractLsb' 8 3 = 2#3 <;> simp [hz, hreg, eq_comm (b := r)]
  · simp [hz, eq_comm (b := r)]

theorem decodeRegRead_eq_error_iff :
    decodeRegRead w = .error r ↔
      r = .reservedEncoding ∧ (w.extractLsb' 0 8 ≠ 0#8 ∨ 5#3 ≤ w.extractLsb' 8 3) := by
  rw [decodeRegRead, ← decodeCsr_eq_none_iff]
  cases decodeCsr (w.extractLsb' 8 3) with
  | none => simp [eq_comm (b := r)]
  | some c => by_cases hz : w.extractLsb' 0 8 = 0#8 <;> simp [hz, eq_comm (b := r)]

theorem decodeTestBit_eq_error_iff :
    decodeTestBit w = .error r ↔
      r = .reservedEncoding ∧ (w.extractLsb' 3 5 ≠ 0#5 ∨ 5#3 ≤ w.extractLsb' 8 3) := by
  rw [decodeTestBit, ← decodeCsr_eq_none_iff]
  cases decodeCsr (w.extractLsb' 8 3) with
  | none => simp [eq_comm (b := r)]
  | some c => by_cases hz : w.extractLsb' 3 5 = 0#5 <;> simp [hz, eq_comm (b := r)]

theorem decodeInit_eq_error_iff :
    decodeInit w = .error r ↔
      r = .reservedEncoding ∧
        ((w.extractLsb' 7 3 ≠ 0#3 ∨ (w.getLsbD 10 = false ∧ w.extractLsb' 0 7 ≠ 0#7)) ∨
        (w.getLsbD 10 = true ∧ (5#3 ≤ w.extractLsb' 0 3 ∨ w.extractLsb' 3 2 = 3#2))) := by
  rw [decodeInit, ← decodeConfig_eq_none_iff]
  by_cases hz : w.extractLsb' 7 3 = 0#3
  · cases hcp : w.getLsbD 10
    · by_cases hcfg : w.extractLsb' 0 7 = 0#7 <;> simp [hz, hcfg, eq_comm (b := r)]
    · cases decodeConfig w <;> simp [hz, eq_comm (b := r)]
  · simp [hz, eq_comm (b := r)]

end Sys2Proof
end

section
/-! SUPPORT. The decoder against R69: which words it refuses, and with which reason (R70, R117). -/

namespace Sys2Proof.Machine

open Sys2Proof

variable {w : CommandWord} {p : List Byte} {r : DecodeRefusal}

/-- Of one opcode, R69 (b) to (e) are what its format's decoder refuses; the two reserved ones are left out, and
SEND_BUFFER, which has a payload. -/
theorem decodeCommand_nil_eq_error_iff (hop2 : opcodeOf w ≠ 0x2#4) (hop : (opcodeOf w).toNat < 14) :
    decodeCommand w [] = .error r ↔ r = .reservedEncoding ∧ reservedWord w := by
  simp only [decodeCommand, ne_eq, not_true_eq_false, and_false, ↓reduceIte]
  split
  case h_3 h => exact absurd (BitVec.eq_of_toNat_eq h) hop2
  case h_15 => simp only [imp_false] at *; omega
  all_goals
    rename_i h
    have field := congrArg (BitVec.ofNat 4) h
    rw [BitVec.ofNat_toNat, BitVec.setWidth_eq, opcodeOf] at field
    simp [reservedWord, field, decodeInit_eq_error_iff, decodeNoOperand_eq_error_iff,
      decodeByteOperand_eq_error_iff, decodeCr1Bit_eq_error_iff, decodeRegRead_eq_error_iff,
      decodeTestBit_eq_error_iff]

theorem opcode_of_decode_reserved {bits : BitVec 13} (h : decodeCommand w p = .ok (.reserved bits)) :
    14 ≤ (opcodeOf w).toNat := by
  obtain ⟨words, -⟩ := hasWords_of_decodeCommand h
  obtain ⟨rfl, -⟩ := PortInput.command.inj words
  exact top_bits_eq_iff.mp BitVec.extractLsb'_append_eq_left

/-- R69 (a). -/
theorem reservedWord_of_reserved_opcode (h : 14 ≤ (opcodeOf w).toNat) : reservedWord w := by
  have two_values : ∀ op : BitVec 4, 14 ≤ op.toNat → op = 0xE#4 ∨ op = 0xF#4 := by decide
  exact .inl (two_values _ h)

/-- What the decoder does with a command word, against R69: refuse it, with the reason it reaches first (R70); give
the reserved instruction, whose meaning is the refusal (log 6); or give a command with a meaning. -/
inductive Decoded (w : CommandWord) (p : List Byte) : Except DecodeRefusal Instr → Prop where
  | badPayload : badPayload w p → (opcodeOf w = 0x2#4 → ¬ reservedWord w) →
      Decoded w p (.error .payloadMismatch)
  | badFields : reservedWord w → (badPayload w p → opcodeOf w = 0x2#4) →
      Decoded w p (.error .reservedEncoding)
  | reserved (bits) : reservedWord w → ¬ badPayload w p → Decoded w p (.ok (.reserved bits))
  | admitted (i) : (∀ bits, i ≠ .reserved bits) → ¬ reservedWord w → ¬ badPayload w p →
      Decoded w p (.ok i)

theorem decoded_sendBuffer (hop : opcodeOf w = 0x2#4) : Decoded w p (decodeCommand w p) := by
  have field : w.extractLsb' 12 4 = 0x2#4 := hop
  have hres : reservedWord w ↔ w.extractLsb' 8 3 ≠ 0#3 := by simp [reservedWord, field]
  have hbad : badPayload w p ↔ p.length ≠ (w.extractLsb' 0 8).toNat := by
    simp only [badPayload, field, ↓reduceIte]
  rw [decodeCommand_of_sendBuffer_opcode hop, decodeSendBuffer]
  split
  · exact .badFields (hres.mpr ‹_›) fun _ => hop
  · rename_i hz
    split
    · exact .badPayload (hbad.mpr ‹_›) fun _ => mt hres.mp hz
    · exact .admitted _ nofun (mt hres.mp hz) (mt hbad.mp ‹_›)

theorem decoded_no_payload (hop2 : opcodeOf w ≠ 0x2#4) : Decoded w [] (decodeCommand w []) := by
  have hgood : ¬ badPayload w [] := by simp [badPayload, show w.extractLsb' 12 4 ≠ 0x2#4 from hop2]
  by_cases hop : (opcodeOf w).toNat < 14
  · have refused (r) := decodeCommand_nil_eq_error_iff (r := r) hop2 hop
    cases hd : decodeCommand w [] with
    | error r =>
      obtain ⟨rfl, hres⟩ := (refused r).mp hd
      exact .badFields hres (absurd · hgood)
    | ok i =>
      refine .admitted i ?_ (fun hres => ?_) hgood
      · rintro bits rfl
        exact absurd (opcode_of_decode_reserved hd) (by omega)
      · rw [(refused _).mpr ⟨rfl, hres⟩] at hd
        cases hd
  · have hop := Nat.le_of_not_lt hop
    rw [decodeCommand_of_reserved_opcode hop]
    exact .reserved _ (reservedWord_of_reserved_opcode hop) hgood

theorem decodeCommand_decoded (w : CommandWord) (p : List Byte) : Decoded w p (decodeCommand w p) := by
  by_cases hop : opcodeOf w = 0x2#4
  · exact decoded_sendBuffer hop
  by_cases hp : p = []
  · subst hp
    exact decoded_no_payload hop
  · rw [decodeCommand_of_payload hop hp]
    refine .badPayload ?_ (absurd · hop)
    rwa [badPayload, if_neg (show w.extractLsb' 12 4 ≠ 0x2#4 from hop)]

end Sys2Proof.Machine
end

section
/-! SUPPORT. The step by what its event decodes to (R53, R117), and what the host port gives back (R59, R65): one
response a command with a meaning, and the refusal mark. -/

namespace Sys2Proof.Machine

open Sys2Proof

variable {i : Instr} {s t : State} {e : Event} {rest : List Event}

theorem step_of_decode_ok (hs : s.schedule = e :: rest) (hd : decode e.input = .ok i) :
    step s = exec i (s.taking e rest) := by
  simp only [step, hs, hd]

theorem step_of_decode_error {r : DecodeRefusal} (hs : s.schedule = e :: rest)
    (hd : decode e.input = .error r) : step s = .next ((s.taking e rest).markRefused r) := by
  simp only [step, hs, hd, refuse]

/-- Settles O6: `State.taking` is the state the statement writes out. -/
theorem stepRunsDecodedInstruction : Obligations.StepRunsDecodedInstruction :=
  fun _ _ _ _ => step_of_decode_ok

theorem step_not_refused (s : State) (r : Refusal) : step s ≠ .refused r := by
  unfold step
  split
  · nofun
  · split
    · exact exec_not_refused _ _ _
    · nofun

/-- Only the reserved row's meaning is a refusal; the decoder's are the step's own (R117). -/
theorem Effect.refusals_eq (h : Effect s i t) (hi : ∀ bits, i ≠ .reserved bits) : t.refusals = s.refusals := by
  cases h
  case reserved => exact absurd rfl (hi _)
  all_goals simp

theorem step_refusals_eq (hs : s.schedule = e :: rest) (hd : decode e.input = .ok i)
    (hi : ∀ bits, i ≠ .reserved bits) (h : step s = .next t) : t.refusals = s.refusals := by
  rw [step_of_decode_ok hs hd] at h
  exact (exec_effect h).refusals_eq hi

/-- Settles O9: of a command, one case for each thing the decoder does with its word. -/
theorem stepRefusesExactlyReservedWords : Obligations.StepRefusesExactlyReservedWords := by
  intro s rest a
  refine ⟨fun w p hs => ?_, fun f t hs h => step_refusals_eq hs rfl nofun h,
    fun t hs h => step_refusals_eq hs rfl nofun h, step_not_refused s⟩
  have hw := decodeCommand_decoded w p
  generalize hd : decodeCommand w p = x at hw
  cases hw
  case badPayload hbad hres =>
    refine ⟨fun _ => ⟨_, step_of_decode_error hs hd, absurd hbad, fun _ => rfl, fun hr _ => ?_⟩,
      fun _ h => absurd hbad h⟩
    exact (if_neg fun hop => hres hop hr).symm
  case badFields hres hbad =>
    refine ⟨fun _ => ⟨_, step_of_decode_error hs hd, fun _ => rfl, absurd hres, fun _ hb => ?_⟩, absurd hres⟩
    exact (if_pos (hbad hb)).symm
  case reserved bits hres hbad =>
    exact ⟨fun _ => ⟨_, step_of_decode_ok hs hd, fun _ => rfl, absurd hres,
      fun _ hb => absurd hb hbad⟩, absurd hres⟩
  case admitted i hi hres hbad =>
    exact ⟨fun h => (h.elim hres hbad).elim, fun _ _ t => step_refusals_eq hs hd hi⟩

theorem responses_respond_of_eq {u : State} {r : Response} (h : u.responses = s.responses) :
    ∃ r', (u.respond r).responses = s.responses ++ [r'] :=
  ⟨r, by rw [State.respond_responses, h]⟩

theorem Effect.one_response (h : Effect s i t) (hc : isCommand i = true) (hi : ∀ bits, i ≠ .reserved bits) :
    ∃ r, t.responses = s.responses ++ [r] := by
  cases h
  case reserved => exact absurd rfl (hi _)
  case rxFrame => cases hc
  case rxFrameOff => cases hc
  case txShift => cases hc
  case txShiftOff => cases hc
  -- The others end in their response.
  all_goals exact responses_respond_of_eq (by simp)

theorem Effect.no_response (h : Effect s i t) (hi : isCommand i = false ∨ ∃ bits, i = .reserved bits) :
    t.responses = s.responses := by
  cases h
  case rxFrame => exact receive_responses ..
  case txShift => exact drain_responses ..
  case reserved => rfl
  case rxFrameOff => rfl
  case txShiftOff => rfl
  -- The others are commands with a meaning.
  all_goals simp [isCommand] at hi

/-- Settles O47: each way a command with a meaning goes on ends in its response, and no other way has one. -/
theorem everyCommandGetsOneResponse : Obligations.EveryCommandGetsOneResponse :=
  fun _ _ _ h => ⟨(exec_effect h).one_response, (exec_effect h).no_response⟩

end Sys2Proof.Machine
end

section
/-! SUPPORT. What the encoder and the decoder give in particular: the worked encodings (R74), the polling commands
(R73), the reserved row (R69 (a)). -/

namespace Sys2Proof.Machine

open Sys2Proof

/-- R75: what a line puts on its port decodes to the line's command. -/
theorem decode_assemble {l : AsmLine} (h : l.toInstr.wellFormed = true) :
    decode (assemble l) = .ok l.toInstr :=
  decode_encode h

/-- Settles O12: the words are the encoder's, and the decoder reads each back. -/
theorem workedEncodingsAssembleAndDecode : Obligations.WorkedEncodingsAssembleAndDecode := by
  intro q hq
  have assembled : assemble q.1 = q.2 ∧ q.1.toInstr.wellFormed = true := by
    revert q
    decide
  exact ⟨assembled.1, assembled.1 ▸ decode_assemble assembled.2⟩

/-- Settles O20: the flag read is the bit tested, and what two instructions encode to decodes to the two. -/
theorem pollingCommandsEqualTheirTestBits : Obligations.PollingCommandsEqualTheirTestBits := by
  intro hp s
  have words_differ {i j : Instr} (hi : i.wellFormed = true) (hj : j.wellFormed = true) (hij : i ≠ j) :
      decode (encode i) ≠ decode (encode j) := by
    rw [decode_encode hi, decode_encode hj]
    exact mt Except.ok.inj hij
  exact ⟨rfl, rfl, words_differ rfl rfl nofun, words_differ rfl rfl nofun⟩

/-- Settles O48: the word's other 13 bits are the opcode's last and the 12 below it. -/
theorem reservedOpcodesAreRefused : Obligations.ReservedOpcodesAreRefused := by
  have decoded (c : BitVec 1) (b : BitVec 12) :
      decode (.command (0b111#3 ++ c ++ b) []) = .ok (.reserved (c ++ b)) := by
    have word : (0b111#3 ++ c ++ b : CommandWord) = 0b111#3 ++ (c ++ b) := BitVec.append_assoc
    rw [word]
    exact decode_encode (i := .reserved (c ++ b)) rfl
  exact ⟨fun _ _ => rfl, fun b => ⟨decoded 0#1 b, decoded 1#1 b⟩⟩

end Sys2Proof.Machine
end

section
/-! SUPPORT. The register commands (40_register_access.md): the writers of each register (R81), one bit of a byte
by its number (R10), and the format R words the decoder refuses (R66, R69). -/

namespace Sys2Proof.Machine

open Sys2Proof

/-! ### The writers of each register -/

/-- Settles O17: for each way an instruction goes on, the registers that R81 lists it for, and the others, which it
keeps. -/
theorem onlyListedWritersChangeEachRegister : Obligations.OnlyListedWritersChangeEachRegister := by
  intro i s t h
  have listed {changed : Prop} : changed → True := fun _ => trivial
  cases exec_effect h
  -- Every register.
  case initNull | initOk | initFail | teardown => exact ⟨listed, listed, listed, listed, listed⟩
  -- DR and SR.
  case sendByteOk | sendBufferSome | receiveByteOk | receiveBufferSome =>
    refine ⟨listed, listed, ?_, ?_, ?_⟩ <;> simp
  -- SR.
  case clearError | rxFrame | txShift => refine ⟨?_, listed, ?_, ?_, ?_⟩ <;> simp
  -- CR1.
  case setBit | clearBit => refine ⟨?_, ?_, listed, ?_, ?_⟩ <;> simp
  -- The other ways write no register.
  all_goals exact ⟨absurd rfl, absurd rfl, absurd rfl, absurd rfl, absurd rfl⟩

/-! ### One bit of a byte -/

section bits
variable {v : Byte} {k : BitIndex} {j : Nat}

theorem bitOf_ofNat (hj : j < 8) : bitOf v (BitVec.ofNat 3 j) = v.getLsbD j := by
  rw [bitOf, BitVec.toNat_ofNat, Nat.mod_eq_of_lt hj]

theorem ofNat_eq_bitIndex_iff (hj : j < 8) : BitVec.ofNat 3 j = k ↔ j = k.toNat := by
  rw [← BitVec.toNat_inj, BitVec.toNat_ofNat, Nat.mod_eq_of_lt hj]

theorem getLsbD_withBitSet (hj : j < 8) :
    (withBitSet v k).getLsbD j = (decide (j = k.toNat) || v.getLsbD j) := by
  simp only [← bitOf_ofNat hj, bitOf_withBitSet, ofNat_eq_bitIndex_iff hj]

theorem getLsbD_withBitClear (hj : j < 8) :
    (withBitClear v k).getLsbD j = (decide (j ≠ k.toNat) && v.getLsbD j) := by
  simp only [← bitOf_ofNat hj, bitOf_withBitClear, ne_eq, ofNat_eq_bitIndex_iff hj]

end bits

/-! ### The words of format R -/

section words
variable {hp : Bool} {r : BitVec 3} {k : BitIndex}

/-- REG_READ's BIT field is 0 (R66), so its low byte is. -/
theorem formatR_zero_bit (op : BitVec 4) :
    formatR op hp r 0#3 = op ++ BitVec.ofBool hp ++ r ++ 0#8 :=
  BitVec.append_assoc

/-- R69 (d) for REG_READ. -/
theorem decode_regRead_refused (hr : 5#3 ≤ r) :
    decode (.command (formatR 0x9#4 hp r 0#3) []) = .error .reservedEncoding := by
  have refused : decodeRegRead (formatR 0x9#4 hp r 0#3) = .error .reservedEncoding :=
    decodeRegRead_eq_error_iff.mpr ⟨rfl, .inr (by rwa [reg_formatR])⟩
  simpa [decode, decodeCommand] using refused

/-- R69 (e). -/
theorem decodeCr1Bit_refused {mk : Bool → BitIndex → Instr} (op : BitVec 4) (hr : r ≠ 2#3) :
    decodeCr1Bit mk (formatR op hp r k) = .error .reservedEncoding :=
  decodeCr1Bit_eq_error_iff.mpr ⟨rfl, .inr (by rwa [reg_formatR])⟩

theorem decode_setBit_refused (hr : r ≠ 2#3) :
    decode (.command (formatR 0xB#4 hp r k) []) = .error .reservedEncoding := by
  simpa [decode, decodeCommand] using decodeCr1Bit_refused 0xB#4 hr

theorem decode_clearBit_refused (hr : r ≠ 2#3) :
    decode (.command (formatR 0xC#4 hp r k) []) = .error .reservedEncoding := by
  simpa [decode, decodeCommand] using decodeCr1Bit_refused 0xC#4 hr

end words

/-! ### The commands -/

/-- Settles O13: in Ready the command has one effect, the answer; its words are the encoder's. -/
theorem regReadAnswersWholeRegister : Obligations.RegReadAnswersWholeRegister := by
  refine ⟨fun _ _ => rfl, fun _ _ hl => whenReady_of_uninit hl _, fun s hl => ?_, fun hp => ?_⟩
  · have answered (reg : Csr) := (Effect.regRead reg hl).exec
    exact ⟨answered .dr, answered .sr, answered .cr1, answered .cr2, answered .brr⟩
  · have decoded (reg : Csr) := decode_encode (i := .regRead hp reg) rfl
    simp only [encode, formatR_zero_bit] at decoded
    refine ⟨decoded .dr, decoded .sr, decoded .cr1, decoded .cr2, decoded .brr, fun r hr => ?_⟩
    rw [← formatR_zero_bit]
    exact decode_regRead_refused hr

/-- An answer of one bit has the bit as its word (R65, R78). -/
theorem ok_byteOfBool (b : Bool) : Response.ok (byteOfBool b) = ⟨if b then 0x0001 else 0x0000, []⟩ := by
  cases b <;> rfl

/-- Settles O14: in Ready the command has one effect, the answer; its words are the encoder's. -/
theorem testBitAnswersOneBit : Obligations.TestBitAnswersOneBit := by
  refine ⟨fun _ _ _ => rfl, fun _ _ _ hl => whenReady_of_uninit hl _, fun reg k s v hl hv => ?_,
    fun hp reg k => decode_encode (i := .testBit hp reg k) rfl⟩
  have read : readCsr reg s = v := by cases reg <;> exact hv.symm
  have answered := (Effect.testBit reg k hl).exec
  rwa [read, ok_byteOfBool] at answered

/-- Settles O15: in Ready the command has one effect, a bit set and the answer; its words are the encoder's. -/
theorem setBitSetsOneCr1Bit : Obligations.SetBitSetsOneCr1Bit :=
  ⟨fun _ _ => rfl, fun _ _ hl => whenReady_of_uninit hl _,
    fun k _ hl => ⟨_, fun _ => getLsbD_withBitSet, (Effect.setBit k hl).exec⟩,
    fun hp k => decode_encode (i := .setBit hp k) rfl, fun _ _ _ => decode_setBit_refused⟩

/-- Settles O16: in Ready the command has one effect, a bit cleared and the answer; its words are the
encoder's. -/
theorem clearBitClearsOneCr1Bit : Obligations.ClearBitClearsOneCr1Bit :=
  ⟨fun _ _ => rfl, fun _ _ hl => whenReady_of_uninit hl _,
    fun k _ hl => ⟨_, fun _ => getLsbD_withBitClear, (Effect.clearBit k hl).exec⟩,
    fun hp k => decode_encode (i := .clearBit hp k) rfl, fun _ _ _ => decode_clearBit_refused⟩

end Sys2Proof.Machine
end

section
/-! SUPPORT. Configuration and initialisation (41_config_init.md): what INIT builds (R82, R85), what TEARDOWN leaves
(R86), and the configuration between two INITs (R87). -/

namespace Sys2Proof.Machine

open Sys2Proof

/-- `stop_code` by its one nonzero value (R83). -/
theorem stopCode_eq_ite (b : StopBits) : stopCode b = if b = .two then 0x20 else 0x00 := by
  cases b <;> rfl

/-- Settles O21: INIT has one effect for each way its checks and its draw turn out; its words are the encoder's. -/
theorem initBuildsTheResetState : Obligations.InitBuildsTheResetState := by
  refine ⟨fun cfg s => (Effect.initNull false cfg (.inl rfl)).exec,
    fun hp s => (Effect.initNull hp none (.inr rfl)).exec, fun c s hd => ?_, fun c s hf hd => ?_,
    fun hp cfg => decode_encode (i := .init hp cfg) rfl⟩
  · rw [← stopCode_eq_ite]
    exact (Effect.initOk c (drawAlloc_eq_ok_iff.mpr hd)).exec
  · have draw_failed : drawAlloc s ≠ .ok := by simpa [drawAlloc_eq_ok_iff, hf] using hd
    exact ⟨_, (Effect.initFail c draw_failed).exec, rfl, rfl, rfl, rfl, rfl, rfl, rfl, rfl⟩

/-- Settles O22: in Ready the command has one effect, and the block it leaves is Uninit, where the command faults;
its words are the encoder's. -/
theorem teardownReleasesTheInstance : Obligations.TeardownReleasesTheInstance := by
  have second_faults (s : State) (hl : s.life = .uninit) :
      exec (.teardown true) s = .fault .notInitialised := whenReady_of_uninit hl _
  exact ⟨fun _ => rfl, second_faults,
    fun s hl => ⟨_, (Effect.teardown hl).exec, rfl, rfl, rfl, rfl, rfl, rfl, rfl, rfl, second_faults _ rfl⟩,
    fun hp => decode_encode (i := .teardown hp) rfl⟩

/-- Settles O24: of the ways an instruction goes on, only INIT's and TEARDOWN's write the three. -/
theorem configurationIsImmutable : Obligations.ConfigurationIsImmutable := by
  intro i s t h hi ht
  cases exec_effect h
  case initNull | initOk | initFail => exact absurd rfl (hi _ _)
  case teardown => exact absurd rfl (ht _)
  -- The others keep them.
  all_goals exact ⟨by simp, by simp, by simp⟩

end Sys2Proof.Machine
end

section
/-! SUPPORT. The transmit path (42_transmit.md): what its operations write, each as one update of the state. -/

namespace Sys2Proof.Machine

open Sys2Proof

variable {s : State}

/-- `DATA_MASK` by its one value that is not all ones (R83). -/
theorem dataMask_eq_ite (d : DataBits) : dataMask d = if d = .seven then 0x7F else 0xFF := by
  cases d <;> rfl

/-- Bit 0 of a byte as a byte (R10, R12). -/
theorem byteOfBool_bitOf_zero (v : Byte) : byteOfBool (bitOf v 0) = v &&& 0x01 := by
  have bit_zero : v &&& 0x01 = (BitVec.ofBool (bitOf v 0)).setWidth 8 :=
    BitVec.and_one_eq_setWidth_ofBool_getLsbD
  rw [bit_zero]
  cases bitOf v 0 <;> rfl

/-- Bytes queued: the FIFO, DR and the flags of a transmission in progress (R89, R90). -/
theorem State.queued_eq (q : List Byte) (b : Byte) (s : State) :
    s.queued q b = { s with txq := some q, dr := b, txBusy := true, sr := s.sr &&& 0xFA } := by
  ext1 <;> simp

/-- A drain that leaves bytes queued shows nothing in the flags (R92). -/
theorem State.drained_of_ne_nil {q : List Byte} (hq : q ≠ []) (b : Byte) (s : State) :
    s.drained b q = { s with
      txq := some q, lineOut := s.lineOut ++ [b &&& dataMask s.cfg.dataBits] } :=
  if_neg hq

/-- The drain of the last byte clears `tx_busy` and sets TXE and TC (R92). -/
theorem State.drained_nil (b : Byte) (s : State) :
    s.drained b [] = { s with
      txq := some [], lineOut := s.lineOut ++ [b &&& dataMask s.cfg.dataBits]
      txBusy := false, sr := s.sr ||| 0x05 } := by
  rw [State.drained, if_pos rfl]
  ext1 <;> simp

section drained
variable (b : Byte) (q : List Byte) (s : State)

@[simp] theorem State.drained_cfg : (s.drained b q).cfg = s.cfg := by
  unfold State.drained; split <;> rfl
@[simp] theorem State.drained_rxq : (s.drained b q).rxq = s.rxq := by
  unfold State.drained; split <;> rfl
@[simp] theorem State.drained_params : (s.drained b q).params = s.params := by
  unfold State.drained; split <;> rfl

end drained

/-- A byte off the line, already masked and without a fault, received where there is room: the byte, which masking
again does not change, and RXNE (R99). -/
theorem receive_masked_of_room {r : List Byte} (hrx : s.rxq = some r) (hroom : r.length ≠ s.params.cap)
    (b : Byte) :
    receive (b &&& dataMask s.cfg.dataBits) false false s = { s with
      rxq := some (r ++ [b &&& dataMask s.cfg.dataBits]), sr := s.sr ||| 0x02 } := by
  rw [receive_of_room hrx hroom, storeFrame_eq, BitVec.and_assoc, BitVec.and_self]
  ext1 <;> simp [parityFault]

section loopback
variable {r : List Byte} (hloop : s.params.loopback = true) (hrx : s.rxq = some r)
include hloop hrx

/-- Under LOOPBACK the byte sent is the byte stored (R92, R101). -/
theorem drain_into_room (hroom : r.length ≠ s.params.cap) (b : Byte) (q : List Byte) :
    drain b q s = { s.drained b q with
      rxq := some (r ++ [b &&& dataMask s.cfg.dataBits]), sr := (s.drained b q).sr ||| 0x02 } := by
  rw [drain_eq_receive_drained, if_pos hloop, ← State.drained_cfg b q s,
    receive_masked_of_room (s := s.drained b q) (by simpa using hrx) (by simpa using hroom)]

/-- Under LOOPBACK a byte that finds the RX FIFO full overruns it (R92, R101). -/
theorem drain_into_full (hfull : r.length = s.params.cap) (b : Byte) (q : List Byte) :
    drain b q s = { s.drained b q with
      sr := (s.drained b q).sr ||| 0x20, currentError := .overrunError } := by
  rw [drain_eq_receive_drained, if_pos hloop,
    receive_of_full (s := s.drained b q) (by simpa using hrx) (by simpa using hfull)]
  rfl

end loopback

/-- `tx_busy` after a drain (R92). -/
theorem drain_txBusy (b : Byte) (q : List Byte) (s : State) :
    (drain b q s).txBusy = if q = [] then false else s.txBusy := by
  rw [drain_eq]
  split <;> split <;> simp

/-- Draining the last byte sets TXE and TC, with LOOPBACK and without (R92). -/
theorem drain_last_flags (b : Byte) (s : State) :
    (drain b [] s).sr.getLsbD 0 = true ∧ (drain b [] s).sr.getLsbD 2 = true := by
  rw [drain_eq]
  simp

end Sys2Proof.Machine
end

section
/-! SUPPORT. The commands of the transmit path and TX_SHIFT, case by case (R89 to R92, R100). -/

namespace Sys2Proof.Machine

open Sys2Proof

/-- Settles O30: an enabled TX_SHIFT is a drain, the drain of a byte or of the last one; LOOPBACK adds the receive,
into room or into a full FIFO. -/
theorem txShiftPutsOldestByteOnLine : Obligations.TxShiftPutsOldestByteOnLine := by
  intro s b q v hl hq hv
  rw [(Effect.txShift b q hl hq).exec, hv, ← dataMask_eq_ite]
  refine ⟨fun hloop => ?_, fun r hloop hrx hroom => ?_, fun r hloop hrx hfull => ?_⟩
  · have silent : drain b q s = s.drained b q := drain_without_loopback b q s hloop
    rw [silent]
    refine ⟨fun hne => ?_, ?_⟩
    · rw [State.drained_of_ne_nil hne]
    · rintro rfl
      rw [State.drained_nil]
  · rw [drain_into_room hloop hrx hroom]
    refine ⟨fun hne => ?_, ?_⟩
    · rw [State.drained_of_ne_nil hne]
    · rintro rfl
      rw [State.drained_nil, BitVec.or_assoc]
      rfl
  · rw [drain_into_full hloop hrx hfull]
    refine ⟨fun hne => ?_, ?_⟩
    · rw [State.drained_of_ne_nil hne]
    · rintro rfl
      rw [State.drained_nil, BitVec.or_assoc]
      rfl

/-- Settles O31: the effects of the two line events where they are not enabled. -/
theorem disabledLineEventsLeaveNoTrace : Obligations.DisabledLineEventsLeaveNoTrace :=
  ⟨fun _ fe pe v hl => (Effect.rxFrameOff fe pe v hl).exec,
    fun _ h => (Effect.txShiftOff (h.imp_right fun hq => by simp [hq])).exec⟩

/-- Settles O27: in Ready the command has one effect for a full FIFO and one for a FIFO with room; its words are the
encoder's. -/
theorem sendByteQueuesOneByte : Obligations.SendByteQueuesOneByte := by
  refine ⟨fun _ _ => rfl, fun _ _ hl => whenReady_of_uninit hl _,
    fun b s q hl hq hfull => (Effect.sendByteFull b q hl hq hfull).exec, fun b s q hl hq hroom => ?_,
    fun hp b => decode_encode (i := .sendByte hp b) rfl⟩
  rw [(Effect.sendByteOk b q hl hq hroom).exec, State.queued_eq]
  rfl

/-- Settles O29: in Ready the command has one effect, the answer, and the invariant ties TXE to the FIFO; its words
are the encoder's. -/
theorem isTxEmptyAnswersTxe : Obligations.IsTxEmptyAnswersTxe := by
  refine ⟨fun _ => rfl, fun _ hl => whenReady_of_uninit hl _, fun s hl => ?_, fun s q hs hl hq => ?_,
    fun hp => decode_encode (i := .isTxEmpty hp) rfl⟩
  · rw [← byteOfBool_bitOf_zero]
    exact (Effect.isTxEmpty hl).exec
  · obtain ⟨rx, -, hr⟩ := hs.ready_tx hl hq
    have txe : s.flag srTXE = q.isEmpty := hr.txe
    rw [(Effect.isTxEmpty hl).exec, txe, ok_byteOfBool]
    cases q <;> rfl

/-- Settles O28: the loop accepts the bytes that fit, so the command has the effect for none or the one for some; its
words are the encoder's. -/
theorem sendBufferQueuesWhatFits : Obligations.SendBufferQueuesWhatFits := by
  refine ⟨fun _ _ => rfl, fun _ _ hl => whenReady_of_uninit hl _, fun p s q n hl hq hbound hn => ?_,
    fun hp p hlen => decode_encode (i := .sendBuffer hp p) (decide_eq_true hlen)⟩
  have pushed : pushWhileRoom s.params.cap q p = (q ++ p.take n, p.take n) := by
    rw [pushWhileRoom_eq _ _ _ hbound, hn, Nat.min_comm, ← List.take_eq_take_min]
  have hlen : (p.take n).length = n := by rw [List.length_take]; omega
  refine ⟨fun hzero => ?_, fun hpos => ?_⟩
  · exact (Effect.sendBufferNone p q hl hq (by simp [pushed, hzero])).exec
  · have last : (pushWhileRoom s.params.cap q p).2.getLast? = some (p.getD (n - 1) 0) := by
      have inside : n - 1 < p.length := by omega
      simp [pushed, List.getLast?_take, hpos.ne', inside]
    rw [(Effect.sendBufferSome p q _ hl hq last).exec, pushed, State.queued_eq, hlen]
    rfl

end Sys2Proof.Machine
end

section
/-! SUPPORT. What the instructions do to the transmitter: when it turns Busy and Idle (R36, R93), and the order of the
bytes sent and queued (R95). -/

namespace Sys2Proof.Machine

open Sys2Proof

variable {i : Instr} {s t : State}

/-! ### Busy and Idle -/

/-- Without a byte offered the loop of R90 accepts none. -/
theorem ne_nil_of_pushed {cap : Nat} {q p : List Byte} {b : Byte}
    (h : (pushWhileRoom cap q p).2.getLast? = some b) : p ≠ [] := by
  rintro rfl
  simp [pushWhileRoom] at h

/-- Only a send that queues a byte sets `tx_busy`, and only the drain of the last byte clears it. -/
theorem Effect.txBusy_cases (h : Effect s i t) (hi : ∀ hp cfg, i ≠ .init hp cfg)
    (ht : ∀ hp, i ≠ .teardown hp) :
    t.txBusy = s.txBusy ∨
    (t.txBusy = true ∧ ((∃ b, i = .sendByte true b) ∨ ∃ p, i = .sendBuffer true p ∧ p ≠ [])) ∨
    (t.txBusy = false ∧ i = .txShift ∧ (∃ b, s.txq = some [b]) ∧
      t.sr.getLsbD 0 = true ∧ t.sr.getLsbD 2 = true) := by
  cases h
  case initNull | initOk | initFail => exact absurd rfl (hi _ _)
  case teardown => exact absurd rfl (ht _)
  case sendByteOk b q _ _ _ => exact .inr (.inl ⟨rfl, .inl ⟨b, rfl⟩⟩)
  case sendBufferSome p q b _ _ hb => exact .inr (.inl ⟨rfl, .inr ⟨p, rfl, ne_nil_of_pushed hb⟩⟩)
  case txShift b q _ hq =>
    cases q with
    | nil => exact .inr (.inr ⟨drain_txBusy .., rfl, ⟨b, hq⟩, drain_last_flags b s⟩)
    | cons c q => exact .inl (drain_txBusy ..)
  -- The others leave it.
  all_goals exact .inl (by simp)

/-- Settles O33: of the ways `tx_busy` is written, the change picks its own. -/
theorem transmitterTurnsBusyAndIdleAsStated : Obligations.TransmitterTurnsBusyAndIdleAsStated := by
  intro i s t h hi ht
  obtain heq | ⟨hbusy, sent⟩ | ⟨hidle, drained⟩ := (exec_effect h).txBusy_cases hi ht
  · exact ⟨by simp +contextual [heq], by simp +contextual [heq]⟩
  · exact ⟨fun _ _ => sent, by simp [hbusy]⟩
  · exact ⟨by simp [hidle], fun _ _ => drained⟩

/-! ### The order of the bytes -/

/-- Settles O34: a send that goes on appends what it accepts, a drain moves the oldest byte to the line, and no other
instruction touches the two. -/
theorem transmittedBytesKeepTheirOrder : Obligations.TransmittedBytesKeepTheirOrder := by
  intro i s t q m hq hm hi ht h
  rw [← dataMask_eq_ite] at hm
  subst hm
  cases exec_effect h
  case initNull | initOk | initFail => exact absurd rfl (hi _ _)
  case teardown => exact absurd rfl (ht _)
  case sendByteNull | sendByteFull =>
    exact ⟨q, [], hq, by simp, .inr ⟨by simp [Response.err, ResponseError.code], rfl⟩⟩
  case sendByteOk b q' _ hq' _ =>
    obtain rfl : q = q' := by simpa [hq] using hq'
    exact ⟨q ++ [b], [b], rfl, by simp, .inl ⟨rfl, rfl⟩⟩
  case sendBufferNone => exact ⟨q, [], hq, by simp, List.nil_prefix, rfl⟩
  case sendBufferSome p q' b _ hq' _ =>
    obtain rfl : q = q' := by simpa [hq] using hq'
    obtain ⟨appended, accepted⟩ := pushWhileRoom_appends s.params.cap p q
    exact ⟨_, (pushWhileRoom s.params.cap q p).2, rfl, by simp [appended], accepted, rfl⟩
  case txShift b q' _ hq' =>
    obtain rfl : q = b :: q' := by simpa [hq] using hq'
    exact ⟨q', [], drain_txq .., by simp, rfl⟩
  -- The others answer, receive or are refused.
  all_goals exact ⟨q, [], by simpa using hq, by simp, rfl⟩

end Sys2Proof.Machine
end

section
/-! SUPPORT. The FIFO law end to end (R95, R101): under LOOPBACK, what each of the three events of the round trip does
to the queues, the line and the ports, and the run of a schedule of them. -/

namespace Sys2Proof.Machine

open Sys2Proof

/-! ### Runs -/

/-- A run goes on from the state its first step leaves. -/
theorem run_of_step {k : Nat} {s u : State} (h : step s = .next u) :
    Host.Core.run Sys2Proof.core (k + 1) s = Host.Core.run Sys2Proof.core k u := by
  have hcore : Sys2Proof.core.step s = .next u := h
  simp only [Host.Core.run, hcore]

/-- A run goes on from the state its first part ends in. -/
theorem run_add {j k : Nat} {s t : State} (h : Host.Core.run Sys2Proof.core j s = .next t) :
    Host.Core.run Sys2Proof.core (j + k) s = Host.Core.run Sys2Proof.core k t := by
  induction j generalizing s with
  | zero => cases h; rw [Nat.zero_add]
  | succ j ih =>
    obtain ⟨u, hu, h⟩ := run_succ h
    rw [Nat.succ_add, run_of_step hu, ih h]

/-! ### The round trip -/

/-- What a block under LOOPBACK has come to in a run from `s`: the two FIFOs, what has gone on the line and been
answered since, and the events to come. The rest of what decides its next step is as in `s`. -/
structure Looped (s : State) (tx rx line : List Byte) (answers : List Response) (events : List Event)
    (t : State) : Prop where
  life : t.life = .ready
  txq : t.txq = some tx
  rxq : t.rxq = some rx
  lineOut : t.lineOut = s.lineOut ++ line
  responses : t.responses = s.responses ++ answers
  schedule : t.schedule = events
  cfg : t.cfg = s.cfg
  params : t.params = s.params
  refusals : t.refusals = s.refusals

/-- SEND_BYTE with HP = 1 (R64). -/
def sendEvent (a : Alloc) (b : Byte) : Event := ⟨.command (0x18#8 ++ b) [], a⟩

/-- TX_SHIFT (R68). -/
def shiftEvent (a : Alloc) : Event := ⟨.shift, a⟩

/-- RECEIVE_BYTE with HP = 1 (R62). -/
def receiveEvent (a : Alloc) : Event := ⟨.command 0x4800 [], a⟩

/-- The schedule of the round trip: the bytes sent, each shifted, each received. -/
def roundTrip (a : Alloc) (bs : List Byte) : List Event :=
  bs.map (sendEvent a) ++
    (List.replicate bs.length (shiftEvent a) ++ List.replicate bs.length (receiveEvent a))

/-- The last event of the round trip is a command, so a clean run takes them all (R137). -/
theorem stepsToLastCommand_roundTrip (a : Alloc) (bs : List Byte) :
    stepsToLastCommand (roundTrip a bs) = 3 * bs.length := by
  cases bs with
  | nil => rfl
  | cons b bs =>
    have last : roundTrip a (b :: bs) = ((b :: bs).map (sendEvent a) ++
        (List.replicate (bs.length + 1) (shiftEvent a) ++ List.replicate bs.length (receiveEvent a))) ++
        receiveEvent a :: [] := by
      simp [roundTrip, List.replicate_succ' (a := receiveEvent a)]
    rw [last, stepsToLastCommand_append rfl (by simp)]
    simp
    omega

section steps
variable {s t : State} {tx rx line : List Byte} {answers : List Response} {events : List Event}
  {a : Alloc} {b : Byte}

/-- The step on an event that decodes to an instruction has that instruction's effect. -/
theorem step_of_effect {e : Event} {i : Instr} {u : State} (hs : t.schedule = e :: events)
    (hd : decode e.input = .ok i) (h : Effect (t.taking e events) i u) : step t = .next u :=
  (step_of_decode_ok hs hd).trans h.exec

theorem Looped.send (h : Looped s tx rx line answers (sendEvent a b :: events) t)
    (hroom : tx.length ≠ s.params.cap) :
    ∃ u, step t = .next u ∧
      Looped s (tx ++ [b]) rx line (answers ++ [Response.ok 0x00]) events u := by
  have hd : decode (sendEvent a b).input = .ok (.sendByte true b) :=
    decode_encode (i := .sendByte true b) rfl
  refine ⟨_, step_of_effect h.schedule hd (.sendByteOk b tx h.life h.txq (h.params ▸ hroom)), ?_⟩
  exact { h with txq := rfl, schedule := rfl, responses := by simp [State.taking, h.responses] }

theorem Looped.shift (h : Looped s (b :: tx) rx line answers (shiftEvent a :: events) t)
    (hloop : s.params.loopback = true) (hroom : rx.length ≠ s.params.cap) :
    ∃ u, step t = .next u ∧
      Looped s tx (rx ++ [b &&& dataMask s.cfg.dataBits]) (line ++ [b &&& dataMask s.cfg.dataBits])
        answers events u := by
  have looped_back := drain_into_room (s := t.taking (shiftEvent a) events) (h.params ▸ hloop) h.rxq
    (h.params ▸ hroom) b tx
  refine ⟨_, step_of_effect h.schedule rfl (.txShift b tx h.life h.txq), ?_⟩
  exact
    { life := by simp [h.life]
      txq := by simp
      rxq := by rw [looped_back]; simp [h.cfg]
      lineOut := by simp [h.lineOut, h.cfg]
      responses := by simp [h.responses]
      schedule := by simp
      cfg := by simp [h.cfg]
      params := by simp [h.params]
      refusals := by simp [h.refusals] }

theorem Looped.receive {v : Byte} (h : Looped s tx (v :: rx) line answers (receiveEvent a :: events) t) :
    ∃ u, step t = .next u ∧ Looped s tx rx line (answers ++ [Response.ok v]) events u := by
  refine ⟨_, step_of_effect h.schedule rfl (.receiveByteOk v rx h.life h.rxq), ?_⟩
  exact
    { life := by simp [h.life]
      txq := by simp [h.txq]
      rxq := by simp
      lineOut := by simp [h.lineOut]
      responses := by simp [h.responses]
      schedule := by simp
      cfg := by simp [h.cfg]
      params := by simp [h.params]
      refusals := by simp [h.refusals] }

end steps

section phases
variable {s t : State} {tx rx line bs : List Byte} {answers : List Response} {events : List Event}
  {a : Alloc}

/-- The SEND_BYTEs of bytes that fit queue them all. -/
theorem Looped.send_all (h : Looped s tx rx line answers (bs.map (sendEvent a) ++ events) t)
    (hfit : tx.length + bs.length ≤ s.params.cap) :
    ∃ u, Host.Core.run Sys2Proof.core bs.length t = .next u ∧
      Looped s (tx ++ bs) rx line (answers ++ List.replicate bs.length (Response.ok 0x00)) events u := by
  induction bs generalizing tx answers t with
  | nil => exact ⟨t, rfl, by simpa using h⟩
  | cons b bs ih =>
    rw [List.length_cons] at hfit ⊢
    obtain ⟨u, hu, h⟩ := h.send (by omega)
    obtain ⟨w, hw, h⟩ := ih h (by simp; omega)
    exact ⟨w, (run_of_step hu).trans hw, by simpa [List.replicate_succ] using h⟩

/-- As many TX_SHIFTs as bytes queued, into an RX FIFO with room for them, take them all over the line. -/
theorem Looped.shift_all (h : Looped s bs rx line answers
      (List.replicate bs.length (shiftEvent a) ++ events) t)
    (hloop : s.params.loopback = true) (hfit : rx.length + bs.length ≤ s.params.cap) :
    ∃ u, Host.Core.run Sys2Proof.core bs.length t = .next u ∧
      Looped s [] (rx ++ bs.map (· &&& dataMask s.cfg.dataBits))
        (line ++ bs.map (· &&& dataMask s.cfg.dataBits)) answers events u := by
  induction bs generalizing rx line t with
  | nil => exact ⟨t, rfl, by simpa using h⟩
  | cons b bs ih =>
    rw [List.length_cons] at hfit h ⊢
    obtain ⟨u, hu, h⟩ := h.shift hloop (by omega)
    obtain ⟨w, hw, h⟩ := ih h (by simp; omega)
    exact ⟨w, (run_of_step hu).trans hw, by simpa using h⟩

/-- As many RECEIVE_BYTEs as bytes received answer them all. -/
theorem Looped.receive_all (h : Looped s tx bs line answers
      (List.replicate bs.length (receiveEvent a)) t) :
    ∃ u, Host.Core.run Sys2Proof.core bs.length t = .next u ∧
      Looped s tx [] line (answers ++ bs.map Response.ok) [] u := by
  induction bs generalizing answers t with
  | nil => exact ⟨t, rfl, by simpa using h⟩
  | cons b bs ih =>
    rw [List.length_cons] at h ⊢
    obtain ⟨u, hu, h⟩ := h.receive
    obtain ⟨w, hw, h⟩ := ih h
    exact ⟨w, (run_of_step hu).trans hw, by simpa using h⟩

/-- The three phases of the round trip, one after the other. -/
theorem Looped.round_trip (h : Looped s [] [] line answers (roundTrip a bs) t)
    (hloop : s.params.loopback = true) (hfit : bs.length ≤ s.params.cap) :
    ∃ u, Host.Core.run Sys2Proof.core (3 * bs.length) t = .next u ∧
      Looped s [] [] (line ++ bs.map (· &&& dataMask s.cfg.dataBits))
        (answers ++ List.replicate bs.length (Response.ok 0x00) ++
          (bs.map (· &&& dataMask s.cfg.dataBits)).map Response.ok) [] u := by
  obtain ⟨u, hu, sent⟩ := h.send_all (by simpa using hfit)
  rw [List.nil_append] at sent
  obtain ⟨v, hv, shifted⟩ := sent.shift_all hloop (by simpa using hfit)
  rw [List.nil_append, ← List.length_map (· &&& dataMask s.cfg.dataBits)] at shifted
  obtain ⟨w, hw, received⟩ := shifted.receive_all
  rw [List.length_map] at hw received
  refine ⟨w, ?_, received⟩
  calc Host.Core.run Sys2Proof.core (3 * bs.length) t
    _ = Host.Core.run Sys2Proof.core (bs.length + (bs.length + bs.length)) t := by congr 1; omega
    _ = .next w := by rw [run_add hu, run_add hv, hw]

end phases

/-- Settles O35: the block starts the round trip with empty FIFOs, and its last event is its last command. -/
theorem loopbackReturnsSentBytesInOrder : Obligations.LoopbackReturnsSentBytesInOrder := by
  intro s bs a m hl htx hrx hloop hfit hm hs
  rw [← dataMask_eq_ite] at hm
  subst hm
  have schedule : s.schedule = roundTrip a bs := hs.trans (List.append_assoc ..)
  have start : Looped s [] [] [] [] (roundTrip a bs) s :=
    ⟨hl, htx, hrx, by simp, by simp, schedule, rfl, rfl, rfl⟩
  obtain ⟨t, run, done⟩ := start.round_trip hloop hfit
  have clean : endsCleanly s t :=
    ⟨by rw [schedule, stepsToLastCommand_roundTrip, run], done.refusals⟩
  refine ⟨t, run, clean, done.txq, done.rxq, done.lineOut, ?_⟩
  rw [done.responses]
  simp [Response.ok]

end Sys2Proof.Machine
end

section
/-! SUPPORT. The receive path (43_receive.md): its commands and RX_FRAME, case by case (R96 to R100). -/

namespace Sys2Proof.Machine

open Sys2Proof

/-- Bytes taken: the FIFO left, DR and RXNE (R96, R97). -/
theorem State.taken_eq (b : Byte) (q : List Byte) (s : State) :
    s.taken b q = { s with
      rxq := some q, dr := b, sr := if q = [] then s.sr &&& 0xFD else s.sr ||| 0x02 } := by
  ext1 <;> simp

/-- Settles O37: the loop takes the oldest bytes, so the command has the effect for none or the one for some; its
words are the encoder's. -/
theorem receiveBufferTakesOldestBytes : Obligations.ReceiveBufferTakesOldestBytes := by
  refine ⟨fun _ _ => rfl, fun _ _ hl => whenReady_of_uninit hl _, fun m s q n hl hq hn => ?_,
    fun hp m => decode_encode (i := .receiveBuffer hp m) rfl⟩
  have bytes_taken : q.take m.toNat = q.take n := by rw [hn, ← List.take_eq_take_min]
  refine ⟨fun hzero => ?_, fun hpos => ?_⟩
  · exact (Effect.receiveBufferNone m q hl hq (by simp [bytes_taken, hzero])).exec
  · have hlen : (q.take n).length = n := by rw [List.length_take]; omega
    have last : (q.take m.toNat).getLast? = some (q.getD (n - 1) 0) := by
      have inside : n - 1 < q.length := by omega
      simp [bytes_taken, List.getLast?_take, hpos.ne', inside]
    have bytes_left : q.drop m.toNat = q.drop n := List.drop_eq_drop_iff.mpr (by omega)
    have none_left : q.drop n = [] ↔ q.length = n := by rw [List.drop_eq_nil_iff]; omega
    rw [(Effect.receiveBufferSome m q _ hl hq last).exec, bytes_taken, bytes_left, hlen, State.taken_eq]
    simp only [none_left]
    rfl

/-- Settles O39: in Ready the frame has one effect, the receive, into a full FIFO or into room; decoding a line word
is reading its fields. -/
theorem rxFrameStoresAndLatches : Obligations.RxFrameStoresAndLatches := by
  refine ⟨fun fe pe v s q hl hq => ?_, fun fe pe v s hl => (Effect.rxFrameOff fe pe v hl).exec,
    fun _ => rfl⟩
  rw [(Effect.rxFrame fe pe v hl).exec]
  refine ⟨fun hfull => ?_, fun hroom m parity hm hparity => ?_⟩
  · rw [receive_of_full hq hfull]
    rfl
  · rw [receive_of_room hq hroom, storeFrame_eq, hm, ← dataMask_eq_ite, hparity]
    rfl

/-- Settles O36: in Ready the command has one effect for an empty FIFO and one for a FIFO with a byte; its words are
the encoder's. -/
theorem receiveByteTakesOldestByte : Obligations.ReceiveByteTakesOldestByte := by
  refine ⟨fun _ => rfl, fun _ hl => whenReady_of_uninit hl _,
    fun s hl hq => (Effect.receiveByteEmpty hl hq).exec, fun s b q hl hq => ?_,
    fun hp => decode_encode (i := .receiveByte hp) rfl⟩
  rw [(Effect.receiveByteOk b q hl hq).exec, State.taken_eq]
  rfl

/-- Settles O38: in Ready the command has one effect, the answer, and the invariant ties RXNE to the FIFO; its words
are the encoder's. -/
theorem isDataReadyAnswersRxne : Obligations.IsDataReadyAnswersRxne := by
  have answered (s : State) (hl : s.life = .ready) : exec (.isDataReady true) s
      = .next (s.respond ⟨if bitOf s.sr srRXNE then 0x0001 else 0x0000, []⟩) := by
    rw [← ok_byteOfBool]
    exact (Effect.isDataReady hl).exec
  refine ⟨fun _ => rfl, fun _ hl => whenReady_of_uninit hl _, answered, fun s q hs hl hq => ?_,
    fun hp => decode_encode (i := .isDataReady hp) rfl⟩
  obtain ⟨tx, -, hr⟩ := hs.ready_rx hl hq
  rw [answered s hl, hr.rxne]
  cases q <;> rfl

end Sys2Proof.Machine
end

section
/-! SUPPORT. What the instructions do to the receiver: how its FIFO fills and empties, and when ORE rises (R27, R99,
R102). -/

namespace Sys2Proof.Machine

open Sys2Proof

variable {s : State}

/-- A bit that is as it was has not risen: `a` is ORE before an instruction, `b` after it. -/
theorem not_raised_of_eq {a b : Bool} {p : Prop} (h : b = a) (ha : a = false) (hb : b = true) : p := by
  simp [h, ha] at hb

/-- Storing a frame's byte sets RXNE, PE and FE at most (R99). -/
theorem storeFrame_ore (q : List Byte) (v : Byte) (pe fe : Bool) (s : State) :
    bitOf (storeFrame q v pe fe s).sr srORE = bitOf s.sr srORE := by
  rw [storeFrame_eq]
  have parity_mask : bitOf (if parityFault pe s then 0x08 else 0x00) srORE = false := by split <;> rfl
  have framing_mask : bitOf (if fe then 0x10 else 0x00) srORE = false := by split <;> rfl
  rw [bitOf_or_kept framing_mask, bitOf_or_kept parity_mask, bitOf_or_kept rfl]

theorem State.taken_ore (b : Byte) (q : List Byte) (s : State) :
    bitOf (s.taken b q).sr srORE = bitOf s.sr srORE := by
  rw [State.taken_sr]
  split
  · exact bitOf_and_kept rfl
  · exact bitOf_or_kept rfl

theorem State.drained_ore (b : Byte) (q : List Byte) (s : State) :
    bitOf (s.drained b q).sr srORE = bitOf s.sr srORE := by
  by_cases hq : q = []
  · rw [hq, State.drained_nil]
    exact bitOf_or_kept rfl
  · rw [State.drained_of_ne_nil hq]

/-- A receive keeps the bytes of the RX FIFO, and sets ORE only where it found the FIFO full (R27, R99). -/
theorem receive_appends {q : List Byte} (hrx : s.rxq = some q) (v : Byte) (pe fe : Bool) :
    ∃ stored, (receive v pe fe s).rxq = some (q ++ stored) ∧
      (bitOf s.sr srORE = false → bitOf (receive v pe fe s).sr srORE = true →
        q.length = s.params.cap) := by
  by_cases hfull : q.length = s.params.cap
  · rw [receive_of_full hrx hfull]
    exact ⟨[], by simp [hrx], fun _ _ => hfull⟩
  · rw [receive_of_room hrx hfull]
    exact ⟨_, by rw [storeFrame_eq], not_raised_of_eq (storeFrame_ore ..)⟩

/-- A drain receives into the RX FIFO under LOOPBACK alone (R92, R101). -/
theorem drain_appends {q : List Byte} (hrx : s.rxq = some q) (b : Byte) (tx : List Byte) :
    ∃ stored, (drain b tx s).rxq = some (q ++ stored) ∧
      (stored ≠ [] → s.params.loopback = true) ∧
      (bitOf s.sr srORE = false → bitOf (drain b tx s).sr srORE = true → q.length = s.params.cap) := by
  have drained_rxq : (s.drained b tx).rxq = some q := by simpa using hrx
  rw [drain_eq_receive_drained]
  split
  case isTrue hloop =>
    obtain ⟨stored, hrx', hore⟩ := receive_appends drained_rxq (b &&& dataMask s.cfg.dataBits) false false
    rw [State.drained_ore, State.drained_params] at hore
    exact ⟨stored, hrx', fun _ => hloop, hore⟩
  case isFalse =>
    exact ⟨[], by simpa using hrx, absurd rfl, not_raised_of_eq (State.drained_ore ..)⟩

/-- Settles O40: a receive adds to the FIFO, RECEIVE_BYTE and RECEIVE_BUFFER take from it, and no other instruction
writes it or sets ORE. -/
theorem receiverFillsAndEmptiesAsStated : Obligations.ReceiverFillsAndEmptiesAsStated := by
  intro i s t q h hq hi ht
  cases exec_effect h
  case initNull | initOk | initFail => exact absurd rfl (hi _ _)
  case teardown => exact absurd rfl (ht _)
  case receiveByteOk b q' _ hq' =>
    obtain rfl : q = b :: q' := by simpa [hq] using hq'
    exact ⟨q', by simp, nofun, fun _ _ => .inl rfl, not_raised_of_eq (State.taken_ore ..)⟩
  case receiveBufferSome m q' b _ hq' _ =>
    obtain rfl : q = q' := by simpa [hq] using hq'
    exact ⟨q.drop m.toNat, by simp, by simp +contextual, fun _ _ => .inr ⟨m, rfl⟩,
      not_raised_of_eq (State.taken_ore ..)⟩
  case rxFrame fe pe v _ =>
    obtain ⟨stored, hrx, hore⟩ := receive_appends hq v pe fe
    exact ⟨_, hrx, fun _ _ => .inl ⟨fe, pe, v, rfl⟩, by simp +contextual, hore⟩
  case txShift b tx _ _ =>
    obtain ⟨stored, hrx, hloop, hore⟩ := drain_appends hq b tx
    exact ⟨_, hrx, by simp +contextual [hloop], by simp +contextual, hore⟩
  -- The others keep the FIFO, and set no bit of SR.
  all_goals
    exact ⟨q, by simpa using hq, fun he hne => absurd he hne, fun hne he => absurd he hne,
      by simp +contextual⟩

end Sys2Proof.Machine
end

section
/-! SUPPORT. The error latch (44_error.md): its two commands, case by case (R104, R105). -/

namespace Sys2Proof.Machine

open Sys2Proof

/-- Settles O41: in Ready the command has one effect, the answer; its words are the encoder's. -/
theorem getErrorAnswersLatchedCode : Obligations.GetErrorAnswersLatchedCode := by
  refine ⟨fun _ => rfl, fun _ hl => whenReady_of_uninit hl _, fun s w hl hw => ?_,
    fun hp => decode_encode (i := .getError hp) rfl⟩
  have word : Response.ok s.currentError.code = ⟨w, []⟩ := by
    rw [hw]
    cases s.currentError <;> rfl
  have answered := (Effect.getError hl).exec
  rwa [word] at answered

/-- The latch cleared: `current_error` and the three error bits of SR (R105). -/
theorem State.clearLatch_eq (s : State) :
    s.clearLatch = { s with currentError := .noError, sr := s.sr &&& 0xC7 } := by
  ext1 <;> simp

theorem State.clearLatch_clearLatch (s : State) : s.clearLatch.clearLatch = s.clearLatch := by
  simp only [State.clearLatch_eq, BitVec.and_assoc, BitVec.and_self]

/-- Settles O42: in Ready the command has one effect, the latch cleared and the answer, and a latch cleared is as
it was when cleared again; its words are the encoder's. -/
theorem clearErrorClearsLatchAndErrorBits : Obligations.ClearErrorClearsLatchAndErrorBits := by
  refine ⟨fun _ => rfl, fun _ hl => whenReady_of_uninit hl _, fun s hl => ?_, fun s t h => ?_,
    fun hp => decode_encode (i := .clearError hp) rfl⟩
  · rw [(Effect.clearError hl).exec, State.clearLatch_eq]
    rfl
  · cases exec_effect h
    case clearError hl =>
      have cleared : (s.clearLatch.respond (Response.ok 0x00)).clearLatch
          = s.clearLatch.respond (Response.ok 0x00) :=
        congrArg (State.respond _) s.clearLatch_clearLatch
      have again := (Effect.clearError (s := s.clearLatch.respond (Response.ok 0x00)) hl).exec
      rwa [cleared] at again

end Sys2Proof.Machine
end

section
/-! SUPPORT. What the error state changes (R108): from states that differ in `current_error` and in the error bits of
SR, an instruction that does not read them leaves states that differ in these alone. -/

namespace Sys2Proof.Machine

open Sys2Proof

variable {s t u : State} {v w : Byte} {e : LatchedError}

/-! ### SR but for its error bits -/

/-- The two SR values agree but for PE, FE and ORE (R25 to R27). -/
def AgreeButErrors (v w : Byte) : Prop := v &&& 0xC7 = w &&& 0xC7

theorem AgreeButErrors.and (h : AgreeButErrors v w) (m : Byte) : AgreeButErrors (v &&& m) (w &&& m) := by
  have mask_first (x : Byte) : x &&& m &&& 0xC7 = x &&& 0xC7 &&& m := by ac_rfl
  unfold AgreeButErrors at *
  rw [mask_first, h, mask_first]

theorem AgreeButErrors.or (h : AgreeButErrors v w) (m : Byte) : AgreeButErrors (v ||| m) (w ||| m) := by
  unfold AgreeButErrors at *
  rw [BitVec.and_or_distrib_right, h, ← BitVec.and_or_distrib_right]

/-- The bits outside the error bits are the same. -/
theorem AgreeButErrors.bitOf_eq (h : AgreeButErrors v w) {k : BitIndex} (hk : bitOf 0xC7 k = true) :
    bitOf v k = bitOf w k := by
  rw [← bitOf_and_kept (v := v) hk, h, bitOf_and_kept hk]

/-! ### States but for the error state -/

/-- `u` is `s` but for `current_error` and the error bits of SR. -/
inductive DiffersInErrors (s : State) : State → Prop where
  | mk (e : LatchedError) {v : Byte} (hv : AgreeButErrors v s.sr) :
      DiffersInErrors s { s with currentError := e, sr := v }

theorem DiffersInErrors.refl (s : State) : DiffersInErrors s s := .mk s.currentError rfl

theorem DiffersInErrors.respond (h : DiffersInErrors s u) (r : Response) :
    DiffersInErrors (s.respond r) (u.respond r) := by
  obtain ⟨e, hv⟩ := h
  exact .mk e hv

theorem DiffersInErrors.queued (h : DiffersInErrors s u) (q : List Byte) (b : Byte) :
    DiffersInErrors (s.queued q b) (u.queued q b) := by
  obtain ⟨e, hv⟩ := h
  simp only [State.queued_eq]
  exact .mk e (hv.and 0xFA)

theorem DiffersInErrors.taken (h : DiffersInErrors s u) (b : Byte) (q : List Byte) :
    DiffersInErrors (s.taken b q) (u.taken b q) := by
  obtain ⟨e, hv⟩ := h
  simp only [State.taken_eq]
  split
  · exact .mk e (hv.and 0xFD)
  · exact .mk e (hv.or 0x02)

theorem DiffersInErrors.clearLatch (h : DiffersInErrors s u) :
    DiffersInErrors s.clearLatch u.clearLatch := by
  obtain ⟨e, hv⟩ := h
  simp only [State.clearLatch_eq]
  exact .mk .noError (hv.and 0xC7)

/-- Without an RX FIFO nothing is received. -/
theorem receive_of_absent (hrx : s.rxq = none) (b : Byte) (pe fe : Bool) : receive b pe fe s = s := by
  simp [receive, hrx]

/-- The receive procedure writes the error state but does not read it (R99, R106). -/
theorem DiffersInErrors.receive (h : DiffersInErrors s u) (b : Byte) (pe fe : Bool) :
    DiffersInErrors (receive b pe fe s) (receive b pe fe u) := by
  obtain ⟨e, hv⟩ := h
  obtain ⟨hrx, -⟩ | ⟨q, hrx, hfull, -⟩ | ⟨q, hrx, hroom, -⟩ := receive_cases b pe fe s
  · rw [receive_of_absent hrx, receive_of_absent (s := { s with currentError := e, sr := _ }) hrx]
    exact .mk e hv
  · rw [receive_of_full hrx hfull, receive_of_full (s := { s with currentError := e, sr := _ }) hrx hfull]
    exact .mk .overrunError (hv.or 0x20)
  · rw [receive_of_room hrx hroom, receive_of_room (s := { s with currentError := e, sr := _ }) hrx hroom,
      storeFrame_eq, storeFrame_eq]
    exact .mk _ (((hv.or 0x02).or _).or _)

theorem DiffersInErrors.drained (h : DiffersInErrors s u) (b : Byte) (q : List Byte) :
    DiffersInErrors (s.drained b q) (u.drained b q) := by
  obtain ⟨e, hv⟩ := h
  by_cases hq : q = []
  · simp only [hq, State.drained_nil]
    exact .mk e (hv.or 0x05)
  · simp only [State.drained_of_ne_nil hq]
    exact .mk e hv

theorem DiffersInErrors.drain (h : DiffersInErrors s u) (b : Byte) (q : List Byte) :
    DiffersInErrors (drain b q s) (drain b q u) := by
  have drained := h.drained b q
  obtain ⟨e, -⟩ := h
  simp only [drain_eq_receive_drained]
  split
  · exact drained.receive _ _ _
  · exact drained

/-! ### The instructions -/

theorem readCsr_with_errors (e : LatchedError) (v : Byte) {r : Csr} (hr : r ≠ .sr) :
    readCsr r { s with currentError := e, sr := v } = readCsr r s := by
  cases r
  case sr => exact absurd rfl hr
  all_goals rfl

/-- Only GET_ERROR, REG_READ SR and TEST_BIT SR answer from what differs: every other instruction goes on in the same
way. -/
theorem Effect.with_errors {i : Instr} (h : Effect s i t) (hv : AgreeButErrors v s.sr)
    (hget : ∀ hp, i ≠ .getError hp) (hread : ∀ hp, i ≠ .regRead hp .sr)
    (htest : ∀ hp k, i ≠ .testBit hp .sr k) :
    ∃ t', Effect { s with currentError := e, sr := v } i t' ∧ DiffersInErrors t t' := by
  have differs : DiffersInErrors s { s with currentError := e, sr := v } := .mk e hv
  cases h
  -- An answer that reads no error bit, and no other change.
  case initNull hp cfg hn => exact ⟨_, .initNull hp cfg hn, differs.respond _⟩
  case sendByteNull b => exact ⟨_, .sendByteNull b, differs.respond _⟩
  case sendByteFull b q hl hq hf => exact ⟨_, .sendByteFull b q hl hq hf, differs.respond _⟩
  case sendBufferNone p q hl hq hn => exact ⟨_, .sendBufferNone p q hl hq hn, differs.respond _⟩
  case receiveByteNull => exact ⟨_, .receiveByteNull, differs.respond _⟩
  case receiveByteEmpty hl hq => exact ⟨_, .receiveByteEmpty hl hq, differs.respond _⟩
  case receiveBufferNone m q hl hq hn => exact ⟨_, .receiveBufferNone m q hl hq hn, differs.respond _⟩
  case isTxEmpty hl =>
    have same_bit : bitOf v srTXE = bitOf s.sr srTXE := hv.bitOf_eq rfl
    refine ⟨_, .isTxEmpty hl, ?_⟩
    simp only [State.flag, same_bit]
    exact differs.respond _
  case isDataReady hl =>
    have same_bit : bitOf v srRXNE = bitOf s.sr srRXNE := hv.bitOf_eq rfl
    refine ⟨_, .isDataReady hl, ?_⟩
    simp only [State.flag, same_bit]
    exact differs.respond _
  case regRead r hl =>
    refine ⟨_, .regRead r hl, ?_⟩
    rw [readCsr_with_errors e v (by rintro rfl; exact hread _ rfl)]
    exact differs.respond _
  case testBit r k hl =>
    refine ⟨_, .testBit r k hl, ?_⟩
    rw [readCsr_with_errors e v (by rintro rfl; exact htest _ _ rfl)]
    exact differs.respond _
  case getError => exact absurd rfl (hget _)
  -- INIT and TEARDOWN leave nothing of the error state they find.
  case initOk c hd => exact ⟨_, .initOk c hd, .refl _⟩
  case initFail c hd => exact ⟨_, .initFail c hd, .refl _⟩
  case teardown hl => exact ⟨_, .teardown hl, .refl _⟩
  -- An update of the FIFOs, of CR1, of the latch or of the refusal mark.
  case sendByteOk b q hl hq hf => exact ⟨_, .sendByteOk b q hl hq hf, (differs.queued _ b).respond _⟩
  case sendBufferSome p q b hl hq hb =>
    exact ⟨_, .sendBufferSome p q b hl hq hb, (differs.queued _ b).respond _⟩
  case receiveByteOk b q hl hq => exact ⟨_, .receiveByteOk b q hl hq, (differs.taken b q).respond _⟩
  case receiveBufferSome m q b hl hq hb =>
    exact ⟨_, .receiveBufferSome m q b hl hq hb, (differs.taken b _).respond _⟩
  case clearError hl => exact ⟨_, .clearError hl, differs.clearLatch.respond _⟩
  case setBit k hl => exact ⟨_, .setBit k hl, .mk e hv⟩
  case clearBit k hl => exact ⟨_, .clearBit k hl, .mk e hv⟩
  case reserved bits => exact ⟨_, .reserved bits, .mk e hv⟩
  -- The line events.
  case rxFrame fe pe b hl => exact ⟨_, .rxFrame fe pe b hl, differs.receive b pe fe⟩
  case rxFrameOff fe pe b hl => exact ⟨_, .rxFrameOff fe pe b hl, differs⟩
  case txShift b q hl hq => exact ⟨_, .txShift b q hl hq, differs.drain b q⟩
  case txShiftOff hn => exact ⟨_, .txShiftOff hn, differs⟩

/-- Settles O45: the instruction has the same effect, and the states it leaves differ in the error state alone. -/
theorem errorStateChangesNothingElse : Obligations.ErrorStateChangesNothingElse := by
  intro i s t e v hv hget hread htest h
  obtain ⟨_, effect, ⟨e', hv'⟩⟩ := (exec_effect h).with_errors (e := e) hv hget hread htest
  exact ⟨_, effect.exec, hv', rfl⟩

end Sys2Proof.Machine
end

section
/-! SUPPORT. Exceptions (60_exceptions.md): which instructions fault (R111, R115, R116), what an error response leaves
as it was (R112), which instructions leave no new error (R113), and the step with no event left (R124). -/

namespace Sys2Proof.Machine

open Sys2Proof

variable {i : Instr} {s t : State} {f : Fault}

/-! ### The faults -/

/-- Past the lifecycle check nothing faults: the block faults where it is Uninit (R115 step 4). -/
theorem whenReady_fault_iff {k : Result} (hk : s.life = .ready → k ≠ .fault f) :
    whenReady s k = .fault f ↔ s.life = .uninit ∧ f = .notInitialised := by
  cases hl : s.life with
  | uninit => simp [whenReady_of_uninit hl, eq_comm]
  | ready => simp [whenReady_of_ready hl, hk hl]

/-- The two checks of R115 in order, on an instruction that does not fault past them. -/
theorem checked_fault_iff {hp : Bool} {k : Result} (hk : s.life = .ready → k ≠ .fault f) :
    whenAddressed hp (whenReady s k) = .fault f ↔
      (if hp = false then some Fault.noInstance
        else if s.life = .uninit then some .notInitialised else none) = some f := by
  cases hp with
  | false => simp
  | true => simp [whenReady_fault_iff hk, eq_comm]

theorem withFifo_ne_fault {q : Option (List Byte)} {k : List Byte → Result} (hq : q ≠ none)
    (hk : ∀ bytes, k bytes ≠ .fault f) : withFifo q k ≠ .fault f := by
  cases q with
  | none => exact absurd rfl hq
  | some bytes => exact hk bytes

/-- A Ready block has its TX FIFO (R17). -/
theorem State.Inv.txq_ne_none (h : s.Inv) (hl : s.life = .ready) : s.txq ≠ none := by
  obtain ⟨tx, rx, htx, -, -⟩ := h.ready hl
  simp [htx]

/-- A Ready block has its RX FIFO (R17). -/
theorem State.Inv.rxq_ne_none (h : s.Inv) (hl : s.life = .ready) : s.rxq ≠ none := by
  obtain ⟨tx, rx, -, hrx, -⟩ := h.ready hl
  simp [hrx]

/-- Settles O10: an instruction's row of R111 is the checks of R115 it makes, and past them a block with its FIFOs
does not fault. -/
theorem faultsAreExactlyTheTableOfOutcomes : Obligations.FaultsAreExactlyTheTableOfOutcomes := by
  intro i s f h
  cases i
  case init hp cfg => cases hp <;> cases cfg <;> exact iff_of_false nofun nofun
  case sendByte hp b =>
    cases hp
    · exact iff_of_false nofun nofun
    · refine (whenReady_fault_iff fun hl => withFifo_ne_fault (h.txq_ne_none hl) fun q => ?_).trans
        (by simp [faultOf, eq_comm])
      split <;> nofun
  case receiveByte hp =>
    cases hp
    · exact iff_of_false nofun nofun
    · refine (whenReady_fault_iff fun hl => withFifo_ne_fault (h.rxq_ne_none hl) fun q => ?_).trans
        (by simp [faultOf, eq_comm])
      cases q <;> nofun
  case sendBuffer hp p =>
    refine checked_fault_iff fun hl => withFifo_ne_fault (h.txq_ne_none hl) fun q => ?_
    simp only; split <;> nofun
  case receiveBuffer hp m =>
    refine checked_fault_iff fun hl => withFifo_ne_fault (h.rxq_ne_none hl) fun q => ?_
    simp only; split <;> nofun
  case rxFrame =>
    refine iff_of_false ?_ nofun
    simp only [exec, execRxFrame]; split <;> nofun
  case txShift =>
    refine iff_of_false ?_ nofun
    simp only [exec, execTxShift]; split <;> nofun
  case reserved => exact iff_of_false nofun nofun
  -- The others answer `Ok` once they are through their checks.
  all_goals exact checked_fault_iff fun _ => nofun

/-! ### Error responses -/

/-- STATUS is the high byte of a response word (R65). -/
theorem Response.okWith_status (v : Byte) (out : List Byte) :
    (Response.okWith v out).word.extractLsb' 8 8 = 0x00 := BitVec.extractLsb'_append_eq_left

/-- An instruction responds not at all, with an error and no other change, with BUFFER_CREATE_FAILURE, or with `Ok`
(R65, R112). -/
theorem Effect.response_cases (h : Effect s i t) :
    t.responses = s.responses ∨
    ∃ u r, u.responses = s.responses ∧ t = u.respond r ∧
      ((u = s ∧ ∃ e, r = Response.err e) ∨ r = Response.err .bufferCreateFailure ∨
        ∃ v out, r = Response.okWith v out) := by
  cases h
  case rxFrame | rxFrameOff | txShift | txShiftOff | reserved => exact .inl (by simp)
  case initNull | sendByteNull | sendByteFull | receiveByteNull | receiveByteEmpty =>
    exact .inr ⟨s, _, rfl, rfl, .inl ⟨rfl, _, rfl⟩⟩
  case initFail => exact .inr ⟨s.release, _, rfl, rfl, .inr (.inl rfl)⟩
  -- The others answer `Ok`.
  all_goals exact .inr ⟨_, _, by simp, rfl, .inr (.inr ⟨_, _, rfl⟩)⟩

/-- Settles O46: of the ways an instruction responds, the STATUS leaves the error that changes nothing. -/
theorem errorResponsesChangeNoState : Obligations.ErrorResponsesChangeNoState := by
  intro i s t r h hr hok hcreate
  obtain hsame | ⟨u, r', hu, rfl, hcases⟩ := (exec_effect h).response_cases
  · simp [hsame] at hr
  obtain rfl : r' = r := by simpa [hu] using hr
  obtain ⟨rfl, e, rfl⟩ | rfl | ⟨v, out, rfl⟩ := hcases
  · exact ⟨rfl, BitVec.extractLsb'_append_eq_right, rfl⟩
  · exact absurd rfl hcreate
  · exact absurd (Response.okWith_status v out) hok

/-! ### No new error -/

section masks
variable {v m : Byte}

theorem errorBits_and (hm : m &&& 0x38 = 0x38) : v &&& m &&& 0x38 = v &&& 0x38 := by
  rw [BitVec.and_assoc, hm]

theorem errorBits_or (hm : m &&& 0x38 = 0#8) : (v ||| m) &&& 0x38 = v &&& 0x38 := by
  rw [BitVec.and_or_distrib_right, hm, BitVec.or_zero]

end masks

/-- `t` has the latched error and the SR error bits of `s`. -/
structure SameErrors (s t : State) : Prop where
  latched : t.currentError = s.currentError
  bits : t.sr &&& 0x38 = s.sr &&& 0x38

/-- No error is latched and no SR error bit is set. -/
structure NoErrors (t : State) : Prop where
  latched : t.currentError = .noError
  bits : t.sr &&& 0x38 = 0

theorem sameErrors_queued (q : List Byte) (b : Byte) (s : State) : SameErrors s (s.queued q b) where
  latched := rfl
  bits := by rw [State.queued_sr]; exact errorBits_and rfl

theorem sameErrors_taken (b : Byte) (q : List Byte) (s : State) : SameErrors s (s.taken b q) where
  latched := State.taken_currentError ..
  bits := by
    rw [State.taken_sr]
    split
    · exact errorBits_and rfl
    · exact errorBits_or rfl

theorem sameErrors_drained (b : Byte) (q : List Byte) (s : State) : SameErrors s (s.drained b q) := by
  by_cases hq : q = []
  · rw [hq, State.drained_nil]
    exact ⟨rfl, errorBits_or rfl⟩
  · rw [State.drained_of_ne_nil hq]
    exact ⟨rfl, rfl⟩

theorem SameErrors.respond (h : SameErrors s t) (r : Response) : SameErrors s (t.respond r) :=
  ⟨h.latched, h.bits⟩

theorem NoErrors.respond (h : NoErrors t) (r : Response) : NoErrors (t.respond r) :=
  ⟨h.latched, h.bits⟩

theorem noErrors_initialised (c : UartConfig) (s : State) : NoErrors (s.initialised c) :=
  ⟨rfl, by simp [srAfterInit]⟩

theorem noErrors_release (s : State) : NoErrors s.release :=
  ⟨rfl, by simp⟩

theorem noErrors_clearLatch (s : State) : NoErrors s.clearLatch :=
  ⟨rfl, by simp [BitVec.and_assoc]⟩

/-- The error state is as it was, or clear: only the line agents latch an error (R113). -/
theorem Effect.command_errors (h : Effect s i t) (hc : isCommand i = true) : SameErrors s t ∨ NoErrors t := by
  cases h
  case rxFrame | rxFrameOff | txShift | txShiftOff => cases hc
  case initOk => exact .inr ((noErrors_initialised ..).respond _)
  case initFail | teardown => exact .inr ((noErrors_release s).respond _)
  case clearError => exact .inr ((noErrors_clearLatch s).respond _)
  case sendByteOk | sendBufferSome => exact .inl ((sameErrors_queued ..).respond _)
  case receiveByteOk | receiveBufferSome => exact .inl ((sameErrors_taken ..).respond _)
  -- The others write neither SR nor `current_error`.
  all_goals exact .inl ⟨rfl, rfl⟩

/-- Without LOOPBACK the drain receives nothing (R92). -/
theorem Effect.txShift_sameErrors (h : Effect s .txShift t) (hloop : s.params.loopback = false) :
    SameErrors s t := by
  cases h
  case txShift b q _ _ =>
    rw [drain_eq_receive_drained, hloop]
    exact sameErrors_drained b q s
  case txShiftOff => exact ⟨rfl, rfl⟩

/-- Settles O43: a command keeps the error state or clears it, and a TX_SHIFT without LOOPBACK keeps it. -/
theorem hostCommandsLatchNoError : Obligations.HostCommandsLatchNoError := by
  intro i s t h
  refine ⟨fun hc => ?_, ?_⟩
  · obtain ⟨latched, bits⟩ | ⟨latched, bits⟩ := (exec_effect h).command_errors hc
    · exact ⟨.inl latched, .inl bits⟩
    · exact ⟨.inr latched, .inr bits⟩
  · rintro rfl hloop
    obtain ⟨latched, bits⟩ := (exec_effect h).txShift_sameErrors hloop
    exact ⟨latched, bits⟩

/-! ### The idle step -/

/-- Settles O7: the step's case for an empty schedule. -/
theorem idleStepChangesNothing : Obligations.IdleStepChangesNothing := by
  intro s hs
  simp only [step, hs]

end Sys2Proof.Machine
end

section
/-! SUPPORT. Power-on (R126, R129): in Uninit an addressed instruction goes on only as INIT or as a refusal (R17). -/

namespace Sys2Proof.Machine

open Sys2Proof

variable {i : Instr} {s t : State}

/-- R115 step 4: an addressed instruction that goes on found the block Ready, unless it is INIT or is refused. -/
theorem Effect.ready_of_addressed (h : Effect s i t) (ha : isAddressed i = true)
    (hinit : ∀ hp cfg, i ≠ .init hp cfg) (hres : ∀ bits, i ≠ .reserved bits) : s.life = .ready := by
  cases h
  case initNull => exact absurd rfl (hinit _ _)
  case initOk => exact absurd rfl (hinit _ _)
  case initFail => exact absurd rfl (hinit _ _)
  case reserved => exact absurd rfl (hres _)
  case sendByteNull => cases ha
  case receiveByteNull => cases ha
  case rxFrameOff => cases ha
  case txShiftOff => cases ha
  -- The others are past the lifecycle check.
  all_goals assumption

theorem exec_fault_of_uninit (hl : s.life = .uninit) (ha : isAddressed i = true)
    (hinit : ∀ hp cfg, i ≠ .init hp cfg) (hres : ∀ bits, i ≠ .reserved bits) :
    exec i s = .fault .notInitialised := by
  cases hx : exec i s with
  | next t =>
    have ready := (exec_effect hx).ready_of_addressed ha hinit hres
    rw [hl] at ready
    cases ready
  | fault f => rw [exec_fault_eq hx, if_pos ha]
  | refused r => exact absurd hx (exec_not_refused i s r)

/-- Settles O1: at reset too the block is at power-on, and there it is Uninit. -/
theorem powerOnHoldsNoValue : Obligations.PowerOnHoldsNoValue := by
  rintro p d s (rfl | rfl) <;> exact ⟨rfl, rfl, rfl, rfl, fun _ _ => exec_fault_of_uninit rfl⟩

end Sys2Proof.Machine
end

section
/-! SUPPORT. The end of a clean run (R137): a run takes one event a step, and each host command it takes is answered
or is refused. Where the refusal mark is as it was, they have all been answered. -/

namespace Sys2Proof.Machine

open Sys2Proof

variable {i : Instr} {s t u : State} {e : Event} {k m n : Nat}

/-! ### Host commands and line events -/

/-- R70, R76: what decodes to a command came in on the command port. -/
theorem isCommand_of_decode (h : decode e.input = .ok i) : isCommand i = isHostCommand e := by
  obtain ⟨input, a⟩ := e
  obtain ⟨rfl, -⟩ := hasWords_of_decode h
  cases i <;> rfl

/-- Only a command word is refused by the decoder (R69). -/
theorem isHostCommand_of_decode_error {r : DecodeRefusal} (h : decode e.input = .error r) :
    isHostCommand e = true := by
  obtain ⟨input, a⟩ := e
  cases input
  case command => rfl
  case frame => cases h
  case shift => cases h

theorem isHostCommand_of_line_event (h : e.input = .shift ∨ ∃ f, e.input = .frame f) :
    isHostCommand e = false := by
  obtain ⟨input, a⟩ := e
  obtain rfl | ⟨f, rfl⟩ := h <;> rfl

/-! ### Every command is answered or refused -/

/-- From `s` to `t` the block has dealt with `n` host commands: each has one response or one refusal mark. -/
def DealsWith (n : Nat) (s t : State) : Prop :=
  ∃ given marks, t.responses = s.responses ++ given ∧ t.refusals = s.refusals ++ marks ∧
    given.length + marks.length = n

theorem DealsWith.of_eq (hresp : t.responses = s.responses) (href : t.refusals = s.refusals) :
    DealsWith 0 s t :=
  ⟨[], [], by simp [hresp], by simp [href], rfl⟩

theorem DealsWith.trans (h : DealsWith m s t) (h' : DealsWith n t u) : DealsWith (m + n) s u := by
  obtain ⟨given, marks, hgiven, hmarks, hm⟩ := h
  obtain ⟨given', marks', hgiven', hmarks', hn⟩ := h'
  refine ⟨given ++ given', marks ++ marks', by simp [hgiven', hgiven], by simp [hmarks', hmarks], ?_⟩
  simp only [List.length_append]
  omega

theorem DealsWith.markRefused (r : DecodeRefusal) (s : State) : DealsWith 1 s (s.markRefused r) :=
  ⟨[], [r], by simp, by simp, rfl⟩

/-- Where nothing was refused, every command has had its response. -/
theorem DealsWith.all_answered (h : DealsWith n s t) (href : t.refusals = s.refusals) :
    ∃ given, t.responses = s.responses ++ given ∧ given.length = n := by
  obtain ⟨given, marks, hgiven, hmarks, hn⟩ := h
  have no_marks : marks = [] := List.append_right_eq_self.mp (hmarks.symm.trans href)
  exact ⟨given, hgiven, by simpa [no_marks] using hn⟩

theorem Effect.dealsWith (h : Effect s i t) : DealsWith (if isCommand i then 1 else 0) s t := by
  by_cases hres : ∃ bits, i = .reserved bits
  · obtain ⟨bits, rfl⟩ := hres
    cases h
    exact .markRefused _ s
  have href : t.refusals = s.refusals := h.refusals_eq fun bits hb => hres ⟨bits, hb⟩
  cases hc : isCommand i with
  | true =>
    obtain ⟨r, hr⟩ := h.one_response hc fun bits hb => hres ⟨bits, hb⟩
    exact ⟨[r], [], hr, by simp [href], rfl⟩
  | false => exact .of_eq (h.no_response (.inl hc)) href

/-- A step deals with the event it takes, if that is a command. -/
theorem step_dealsWith (h : step s = .next t) :
    DealsWith ((s.schedule.take 1).countP isHostCommand) s t := by
  obtain ⟨hs, rfl⟩ | ⟨e, rest, i, hs, hd, hx⟩ | ⟨e, rest, r, hs, hd, rfl⟩ := step_next h
  · rw [hs]; exact .of_eq rfl rfl
  · have dealt : DealsWith (if isCommand i then 1 else 0) s t := (exec_effect hx).dealsWith
    simpa [hs, isCommand_of_decode hd, List.countP_cons] using dealt
  · have dealt : DealsWith 1 s ((s.taking e rest).markRefused r) := .markRefused r (s.taking e rest)
    simpa [hs, isHostCommand_of_decode_error hd] using dealt

/-! ### Runs -/

theorem run_schedule (h : Host.Core.run Sys2Proof.core k s = .next t) : t.schedule = s.schedule.drop k := by
  induction k generalizing s with
  | zero => cases h; rfl
  | succ k ih =>
    obtain ⟨u, hu, h⟩ := run_succ h
    rw [ih h, step_schedule hu, List.drop_tail]

/-- A run deals with the commands among the events it takes. -/
theorem run_dealsWith (h : Host.Core.run Sys2Proof.core k s = .next t) :
    DealsWith ((s.schedule.take k).countP isHostCommand) s t := by
  induction k generalizing s with
  | zero => cases h; exact .of_eq rfl rfl
  | succ k ih =>
    obtain ⟨u, hu, h⟩ := run_succ h
    have later := ih h
    rw [step_schedule hu] at later
    have count : (s.schedule.take (k + 1)).countP isHostCommand =
        (s.schedule.take 1).countP isHostCommand + (s.schedule.tail.take k).countP isHostCommand := by
      rw [← List.countP_append, Nat.add_comm k 1, List.take_add, List.drop_one]
    rw [count]
    exact (step_dealsWith hu).trans later

/-! ### The end state -/

/-- Settles O49: a clean run takes the events up to the last command, and the line events after it stay. -/
theorem endStateFollowsTheLastResponse : Obligations.EndStateFollowsTheLastResponse := by
  refine ⟨fun s t before lines w p a hs hlines => ?_, fun s t hlines => ?_⟩
  · have steps : stepsToLastCommand s.schedule = before.length + 1 := by
      rw [hs, stepsToLastCommand_append rfl fun e he => isHostCommand_of_line_event (hlines e he)]
    have clean : endsCleanly s t ↔ Host.Core.run Sys2Proof.core (before.length + 1) s = .next t ∧
        t.refusals = s.refusals := by rw [endsCleanly, steps]
    refine ⟨clean, fun h => ?_⟩
    obtain ⟨run, href⟩ := clean.mp h
    have count : (s.schedule.take (before.length + 1)).countP isHostCommand =
        before.countP isHostCommand + 1 := by
      simp [hs, List.take_append, List.take_of_length_le]
    refine ⟨by simp [run_schedule run, hs, List.drop_append], ?_⟩
    rw [← count]
    exact (run_dealsWith run).all_answered href
  · have steps : stepsToLastCommand s.schedule = 0 :=
      stepsToLastCommand_of_no_command fun e he => isHostCommand_of_line_event (hlines e he)
    rw [endsCleanly, steps]
    constructor
    · rintro ⟨run, -⟩; cases run; rfl
    · rintro rfl; exact ⟨rfl, rfl⟩

end Sys2Proof.Machine
end
